-- ==== Sys2Proof/Word.lean ====
section
/-!
DEFINITION. The word types of Tyeraroth 3 (00_scope R4, 03_bundle_encoding R63, R69): bytes, the 24-bit words of a
fetch packet, and the widths of the register files.
-/
namespace Sys2Proof

/-- A byte of memory. -/
abbrev Byte := BitVec 8
/-- A 24-bit word of a fetch packet: a header, a slot word or a long immediate (R63, R68, R69, R71). -/
abbrev Word24 := BitVec 24
/-- A scalar register's value (R10). -/
abbrev W32 := BitVec 32
/-- An address register's value (R10). -/
abbrev W64 := BitVec 64
/-- A lane mask (R13). -/
abbrev W256 := BitVec 256
/-- A vector register's value (R10). -/
abbrev W2048 := BitVec 2048
/-- One face of an accumulator tile: 64 rows of 64 elements of 32 bits; element (i, j) is element j of row i (R198). -/
abbrev Tile := BitVec 131072
/-- A fetch packet of 256 bits (R63). -/
abbrev Packet := BitVec 256
/-- A format tag (R18). -/
abbrev Tag := BitVec 4

/-- The tag NONE (R18). -/
abbrev Tag.none : Tag := 0

end Sys2Proof
end

