-- ==== Sys2Proof/Syntax.lean ====
section
/-!
DEFINITION. The instructions: one constructor for every row of spec/opcode_table.json, in the table's order.
Three kinds of row stand there: the indivisible steps of the device (95_what_each_step_holds), the 24-bit slot words of
a bundle (R69, R78), and the 32-bit micro-operations of a matrix engine (R206). A step's operands are the data that
reach it from outside; the place it acts on (core, context, engine, partition, die) is the cursor of the state.
-/
namespace Sys2Proof

/-- The guard of a slot word: bits N [23] and G [22:19] (R69). -/
structure Guard where
  n : Bool
  g : BitVec 4
  deriving DecidableEq, Repr

/-- The fields of a slot word but its destination: the guard and SRC [18:10] (R69). -/
structure Slot where
  gd : Guard
  src : BitVec 9
  deriving DecidableEq, Repr

/-- The slot classes of R73: slots 2 and 3 share class 2, slots 4 and 5 class 4. -/
inductive Cls where
  | c0 | c1 | c2 | c4 | c6 | c7
  deriving DecidableEq, Repr

/-- The class of slot j (R73). -/
def Cls.ofSlot (j : Nat) : Cls :=
  match j with
  | 0 => .c0 | 1 => .c1 | 2 => .c2 | 3 => .c2 | 4 => .c4 | 5 => .c4 | 6 => .c6 | _ => .c7

/-- The header word of a bundle (R68). -/
structure Header where
  rsv : BitVec 6
  imm : BitVec 2
  ops : BitVec 3
  c : Bool
  e : Bool
  s : Bool
  w : Bool
  f : Bool
  pm : BitVec 8
  deriving DecidableEq, Repr

/-- The rounding modes (R99): RNE, RTZ, RDN, RUP. -/
inductive Rm where
  | rne | rtz | rdn | rup
  deriving DecidableEq, Repr

/-- Junction temperature against the limits of R348: below 105 C, at or above 105 C, at or above 110 C. -/
inductive Thermal where
  | below105 | from105 | from110
  deriving DecidableEq, Repr

/-- A physical row: of the pool (0 to 12,799), or of the Larder (64 x slot + row) (R235, R237). -/
inductive RowRef where
  | pool (r : Nat)
  | larder (r : Nat)
  deriving DecidableEq, Repr

/-- A DRAM command an HBM4E controller issues, with its cause (R344); of the device's own, a refresh, or an activation or a burst of
the patrol or a test. -/
inductive DramCmd where
  | activate | readBurst | writeBurst | turnaround
  | overhead (burst : Option Bool)
  deriving DecidableEq, Repr

/-- The operations of a queue pair (R369). -/
inductive NetOp where
  | send | write | read
  | fetchAdd (add : W64)
  | cmpSwap (cmp swap : W64)
  deriving DecidableEq, Repr

/-- An access of a queue pair to its rings: address, bytes, write (R369). -/
structure RingAccess where
  va : W64
  len : Nat
  write : Bool
  deriving DecidableEq, Repr

/-- A work request or an inbound packet of a queue pair (R369, R370): the operation, the buffer in its partition's virtual space,
whether it comes from the network, on the unreliable datagram service, the bytes that the network brings, and the accesses of the
queue rings that it takes. -/
structure NetReq where
  qp : Nat
  op : NetOp
  va : W64
  len : Nat
  inbound : Bool
  ud : Bool := false
  data : List Byte
  rings : List RingAccess := []
  deriving DecidableEq, Repr

/-- Whether a request writes its buffer: data that arrive, the answer to a read or an atomic, an atomic at its target. -/
def NetReq.write (r : NetReq) : Bool :=
  match r.op with
  | .send => r.inbound
  | .write => r.inbound
  | .read => !r.inbound
  | .fetchAdd _ => true
  | .cmpSwap _ _ => true
/-- Whether a request is an atomic that the port performs here. -/
def NetReq.atomic (r : NetReq) : Bool :=
  match r.op with
  | .fetchAdd _ => r.inbound
  | .cmpSwap _ _ => r.inbound
  | _ => false

/-- An inbound storage access: requester ID, virtual address, direction, bytes (R371, R375). -/
structure DmaReq where
  rid : BitVec 16
  va : W64
  write : Bool
  len : Nat
  data : List Byte
  deriving DecidableEq, Repr

/-- A host access through a virtual function: its number, BAR0 (the mailbox window and the MSI-X structures) or BAR2 (the
partition's RANGES in order), whether it carries a PASID prefix (R361, R362), and the Relaxed Ordering attribute (R274). -/
structure HostAccess where
  vf : Nat
  bar0 : Bool
  write : Bool
  off : Nat
  len : Nat
  data : List Byte
  pasid : Bool := false
  relaxed : Bool := false
  deriving DecidableEq, Repr

/-- The device registers a write of which only stores the value (REGISTER_WRITE). -/
inductive DevReg where
  | lqcpl | lqcplrd
  | hcode | hentry
  | celbase | celack | tenkey (i : BitVec 2) | audkey (i : BitVec 2) | keyctl
  | prqbase | watchbase | watchEntry (i : BitVec 6) (field : BitVec 2)
  | pcmd
  | llbase | perrbase
  | facc (i : BitVec 2)
  | dlogbase | dlogctl
  | mbxbase
  | hevbase | hevrd
  | stobind (r : Byte)
  | qpair (n : BitVec 13)
  | jname
  | weight (op : BitVec 3) (cls : BitVec 4)
  deriving DecidableEq, Repr

/-- The instructions of the opcode table. -/
inductive Instr where
  /-- R55: A context issues one bundle: it reads all sources in the first cycle, performs the slot moves and triggers, and advances SCLK and the pipelines by one. -/
  | bundleIssue
  /-- R41: At the end of a bundle with F set, every written register exchanges its faces, FLG is updated, p15 is refreshed and the phase's deferred events are delivered. -/
  | flip
  /-- R49: The waiting flip of a FLIP.W takes place at the end of the core cycle in which the phase's last outstanding write lands. -/
  | flipWComplete
  /-- R242: A bundle with C set requests operating point OPS, which is checked against FLOOR and the lease and then clamped to the ceiling. -/
  | opChangeRequest (j : BitVec 3)
  /-- R45: A synchronous operation delivers its result to its unit's result port L schedule cycles after its trigger. -/
  | resultDelivery
  /-- R40: The am write of a CVT.AMAX lands on the hidden face 4 sc after issue, or in the cycle of an earlier FLIP.W. -/
  | amUpdateLand
  /-- R199: An MZERO's zeroing write lands on the tile's hidden face in the core cycle after its bundle. -/
  | mzeroLand
  /-- R157: A scratch load, store, FILL, atomic or SHAPE performs in its fixed core cycle after its bundle, in the within-cycle order of R158. -/
  | scratchAccessPerform
  /-- R326: The captured dump is encrypted, signed and written to a Cellar slot; WIDX is then raised and an MSI sent. -/
  | dumpWrite
  /-- R129: A blocked context's condition holds at the end of a core cycle, and the context becomes ready. -/
  | blockRelease
  /-- R133: The PCC reaches a context's timer deadline; the timer disarms and a timer request becomes pending. -/
  | timerExpiry
  /-- R296: A barrier episode releases when every member has arrived and its local writes have performed; a group-255 release begins a communication step. -/
  | barrierRelease (tag : W32) (g : Byte)
  /-- R180: A queued XFER entry runs at its offset after the release and copies its bytes within its window. -/
  | xferTransfer (tag : W32)
  /-- R299: A communication step ends at PCC rel + n, and deferred operating-point requests then take effect. -/
  | commStepEnd (tag : W32)
  /-- R301: The die's dispenser serves an arriving NTREQ with its next index, or with NULL, and writes the target nt register's hidden face. -/
  | dispenserAnswer
  /-- R173: A due block transfer is begun by the copy engine in buffer order and moves its elements. -/
  | cpyBegin
  /-- R174: The last byte of a chunk performs, and the chunk's bit in cbB is set. -/
  | chunkBitSet
  /-- R178: A stream delivers its next 64-byte granule into the scratch and raises wpj by its size. -/
  | streamGranule
  /-- R181: A CATOM's fetch-and-add completes and its old value is delivered to CE.q. -/
  | catomAnswer
  /-- R167: The answer code of a PROBE lands in pk and in LSn.q. -/
  | probeAnswer
  /-- R168: An EVAC finishes moving rows and slots, sets FLOOR, and lands its code in pk and LSn.q. -/
  | evacAnswer
  /-- R183: The Lutis planner's grant or refusal of a boost lease lands in pk. -/
  | leaseAnswer (granted : Bool) (dur : Nat)
  /-- R350: A boost lease runs out, and a core at OP7 is brought to OP6. -/
  | leaseExpiry
  /-- R201: An accepted MCALL's routine starts at its start offset, beginning with 8 fill cycles. -/
  | engineStart
  /-- R209: An MPSW held while the engine was Busy performs in the cycle after Busy falls. -/
  | mpswDeferredWrite
  /-- R82: The prefetch engine expands a code segment into a loop-buffer half. -/
  | segmentExpansion
  /-- R84: The prefetch engine fetches sparsity-metadata words at MPC into the buffer, marking any word whose translation faults. -/
  | metadataPrefetch
  /-- R241: A settling window closes, OPC is updated, and the next step toward the target begins. -/
  | opStepWindowEnd
  /-- R349: Every 3,000 PCC cycles the governor compares average power with the cap and moves among NONE, PRESSURE and SKIP. -/
  | governorEvaluation (power : Nat)
  /-- R348: Every 100 µs the Lutis planner assigns each core its ceiling and power cap. -/
  | plannerAssignment (ceiling : BitVec 3) (cap pb credit : Nat)
  /-- R348: The junction temperature crosses 105 °C or 110 °C, and ceilings are limited or 7-in-8 skipping is forced. -/
  | thermalLimit (level : Thermal)
  /-- R245: Lutis tests a pool or Larder row destructively, or with a margin read. -/
  | inFieldTest (row : RowRef) (fails : Bool)
  /-- R247: With evacuation pending, at a safe-point flip with no engine busy, firmware moves rows to spares. -/
  | firmwareEvacuation
  /-- R251: The patrol reads a word, writes back a corrected single-bit error, or retires a row with an uncorrectable error. -/
  | patrolRead (row : RowRef) (word : BitVec 5)
  /-- R287: A write to LQPUSH queues a launch record, or refuses it with STATUS 9. -/
  | lqpush (v : W64)
  /-- R292: A write to LQCANCEL removes a queued launch, or stops a placed launch at its next safe points. -/
  | lqcancel (v : W64)
  /-- R291: The launch unit admits a launch with satisfied prerequisites and places it on all its cores at once, or resumes a saved launch. -/
  | launchPlacement
  /-- R305: A launch is brought to safe points after any running step and saved, then requeued. -/
  | preEmption (tag : W32)
  /-- R293: Every context has ended, every command has completed and no step is running, so the launch releases its cores. -/
  | launchCompletion (tag : W32)
  /-- R288: A completion entry is written to the ring when there is room, and an MSI is sent. -/
  | completionRingWrite
  /-- R255: A write to TXATP sets the translation root, or under VIRT is recorded in GTXW and raises the translation-write interrupt. -/
  | txatpWrite (v : W64) (byKernel : Bool)
  /-- R256: A write to TXINV sets BUSY and starts discarding cached translations in scope. -/
  | txinvWrite (v : W64) (byKernel : Bool)
  /-- R256: No cached translation in scope remains and all accesses using them have performed, so BUSY clears. -/
  | txInvalidationDone
  /-- R259: The partition kernel answers a page-request entry as resolved or failed, which frees the entry. -/
  | prqresp (v : W64)
  /-- R338: PCMDGO OP 1 creates a partition from its record, or refuses it. -/
  | partCreate
  /-- R339: PCMDGO OP 2 removes a partition that has no queued or placed launch. -/
  | partRemove
  /-- R343: PCMDGO OP 3 resets a partition: it stops launches, cancels leases, zeroes state and resets registers. -/
  | partReset
  /-- R343: A partition reset completes and reset-done is raised within 4 ms. -/
  | resetDone
  /-- R339: PCMDGO OP 4 re-reads OCCBUD, POWCAP, SAFEB, NETSH and STOSH. -/
  | partUpdateBudgets
  /-- R353: PCMDGO OP 5 pre-empts every launch into the migration area and ends leases. -/
  | partQuiesce
  /-- R353: PCMDGO OP 6 imports a migrated partition after the feature and placement checks. -/
  | partImport
  /-- R341: A read of GTXW1 that returns VALID removes the oldest recorded translation write. -/
  | gtxw1Read
  /-- R341: A write to VFIRQ raises VF vector VEC when VEC is 4 or more. -/
  | vfirq (v : W64)
  /-- R341: A write to STOCLR clears the error state of the partition's storage binding. -/
  | stoclr (v : W64)
  /-- R344: An HBM4E controller issues a DRAM command and charges its occupancy, setting BG when the budget is passed. -/
  | dramCommand (cmd : DramCmd)
  /-- R345: A 100 µs occupancy window ends, and OCCUSE and BG are cleared. -/
  | occupancyWindowEnd
  /-- R351: A write of LOCK = 1 locks the accepted feature words, or is refused with ERR set. -/
  | flock (v : W64)
  /-- R352: A write to a counter select register chooses an event and sets or clears UNAV. -/
  | counterSelect (idx : BitVec 4) (v : W64)
  /-- R352: A read of CNTCHG returns the counter-change bits and clears them. -/
  | cntchgRead
  /-- R354: A write to SNAP makes the other dirty bitmap active and sets BUSY. -/
  | dlogSnap
  /-- R354: Every write that performed before the switch has set its bit, so BUSY clears. -/
  | dlogSnapDone
  /-- R367: A Deceg flit fails its CRC and is replayed. -/
  | flitReplay (b : BitVec 2)
  /-- R355: A boundary is declared failed; spanning launches end with a link-loss record and STATUS 7. -/
  | linkFailure (b : BitVec 2)
  /-- R368: A host write of 1 to a LINKCTL bit starts retraining a failed boundary. -/
  | linkctlRetrain (v : W64)
  /-- R368: Boundary training ends with the boundary up or failed. -/
  | linkTrainingEnd (b : BitVec 2) (up : Bool)
  /-- R362: A host write to KICK raises the mailbox interrupt at the partition's lowest hart. -/
  | kick (v : W64)
  /-- R362: A kernel write to MBXSTAT reports acceptance or tearing and raises VF vector 2. -/
  | mbxstat (v : W64)
  /-- R369: The network port processes a RoCEv2 work request or inbound packet of a queue pair. -/
  | networkWorkRequest (r : NetReq)
  /-- R371: Inbound storage DMA is checked against STOBIND and translated, or refused. -/
  | storageDma (r : DmaReq)
  /-- R372: On power-good, boot begins at stage 1 with verification of the Lutis image. -/
  | powerGood
  /-- R372: A boot stage completes or fails; BOOTSTAT is updated and PF0 vector 1 is raised. -/
  | bootStageComplete (ok : Bool)
  /-- R373: An attestation request with a nonce returns signed evidence. -/
  | attestationRequest (nonce : W256)
  /-- R375: A write to PKGCAP sets the package cap, clamped to the form's limit. -/
  | pkgcap (v : W64)
  /-- R377: The module input exceeds 3,000 W for 1 ms; skipping is forced and a type-5 event is written. -/
  | moduleInputTrip
  /-- R377: The input has stayed at or below 2,800 W for 10 ms, so the cores return to the governor. -/
  | moduleTripClear
  /-- R242: Package cold reset zeroes the PCC and starts every core at OP6 with ceiling 6. -/
  | coldReset
  /-- R339: A write to a device register that has no behaviour of its own stores the value. -/
  | registerWrite (r : DevReg) (v : W64)
  /-- R70: A raw move from a source to a register or operand port. -/
  | move (w : Slot) (dst : BitVec 9)
  /-- R122: Relative branch. -/
  | br (w : Slot)
  /-- R122: Absolute branch. -/
  | bri (w : Slot)
  /-- R122: Relative call writing the link to a15. -/
  | call (w : Slot)
  /-- R122: Absolute call writing the link to a15. -/
  | calli (w : Slot)
  /-- R122: Return through vis(a15). -/
  | ret (w : Guard)
  /-- R124: Opens a zero-overhead loop level. -/
  | loop (w : Slot)
  /-- R126: Pops the innermost loop level and transfers. -/
  | lexit (w : Slot)
  /-- R127: Sets the metadata pointer. -/
  | mpcset (w : Slot)
  /-- R128: Requests the next tile into nt[NTI]. -/
  | ntreq (w : Guard)
  /-- R130: Arrives at a group barrier and blocks. -/
  | bar (w : Slot)
  /-- R130: Blocks until the masked chunk bits are set. -/
  | waitbm (w : Slot)
  /-- R130: Blocks until a write pointer reaches a threshold. -/
  | waitwp (w : Slot)
  /-- R131: Raises a deferred TRAP event. -/
  | trap (w : Slot)
  /-- R132: Ends handler service with resume, redirect or kill. -/
  | eret (w : Slot)
  /-- R133: Arms or disarms a user context's timer. -/
  | timerset (w : Slot)
  /-- R184: Reads scheduler state into a handler register. -/
  | rdsched (w : Slot)
  /-- R185: Writes a software record to the sample buffer. -/
  | recw (w : Slot)
  /-- R183: Requests or returns a boost lease. -/
  | lease (w : Slot)
  /-- R134: Ends the issuing context after its flip. -/
  | halt (w : Guard)
  /-- R122: Extended form of BR. -/
  | brExt (w : Slot)
  /-- R122: Extended form of BRI. -/
  | briExt (w : Slot)
  /-- R122: Extended form of CALL. -/
  | callExt (w : Slot)
  /-- R122: Extended form of CALLI. -/
  | calliExt (w : Slot)
  /-- R122: Extended form of RET. -/
  | retExt (w : Slot)
  /-- R124: Extended form of LOOP. -/
  | loopExt (w : Slot)
  /-- R126: Extended form of LEXIT. -/
  | lexitExt (w : Slot)
  /-- R127: Extended form of MPCSET. -/
  | mpcsetExt (w : Slot)
  /-- R128: Extended form of NTREQ. -/
  | ntreqExt (w : Slot)
  /-- R130: Extended form of BAR. -/
  | barExt (w : Slot)
  /-- R130: Extended form of WAITBM. -/
  | waitbmExt (w : Slot)
  /-- R130: Extended form of WAITWP. -/
  | waitwpExt (w : Slot)
  /-- R131: Extended form of TRAP. -/
  | trapExt (w : Slot)
  /-- R132: Extended form of ERET. -/
  | eretExt (w : Slot)
  /-- R133: Extended form of TIMERSET. -/
  | timersetExt (w : Slot)
  /-- R184: Extended form of RDSCHED. -/
  | rdschedExt (w : Slot)
  /-- R185: Extended form of RECW. -/
  | recwExt (w : Slot)
  /-- R183: Extended form of LEASE. -/
  | leaseExt (w : Slot)
  /-- R134: Extended form of HALT. -/
  | haltExt (w : Slot)
  /-- R115: Scalar add modulo 2^32. -/
  | add (w : Slot)
  /-- R115: Scalar subtract. -/
  | sub (w : Slot)
  /-- R115: Saturating scalar add. -/
  | addS (w : Slot)
  /-- R115: Saturating scalar subtract. -/
  | subS (w : Slot)
  /-- R115: Scalar AND. -/
  | and (w : Slot)
  /-- R115: Scalar OR. -/
  | or (w : Slot)
  /-- R115: Scalar XOR. -/
  | xor (w : Slot)
  /-- R115: Scalar AND-NOT. -/
  | andn (w : Slot)
  /-- R115: Shift left. -/
  | shl (w : Slot)
  /-- R115: Logical shift right. -/
  | shr (w : Slot)
  /-- R115: Arithmetic shift right. -/
  | sar (w : Slot)
  /-- R115: Rotate right. -/
  | ror (w : Slot)
  /-- R115: Signed minimum. -/
  | min (w : Slot)
  /-- R115: Signed maximum. -/
  | max (w : Slot)
  /-- R115: Unsigned minimum. -/
  | minu (w : Slot)
  /-- R115: Unsigned maximum. -/
  | maxu (w : Slot)
  /-- R115: Compare equal. -/
  | cmpeq (w : Slot)
  /-- R115: Compare not equal. -/
  | cmpne (w : Slot)
  /-- R115: Signed less-than. -/
  | cmplt (w : Slot)
  /-- R115: Signed less-or-equal. -/
  | cmple (w : Slot)
  /-- R115: Unsigned less-than. -/
  | cmpltu (w : Slot)
  /-- R115: Unsigned less-or-equal. -/
  | cmpleu (w : Slot)
  /-- R115: Select a or b by c[0]. -/
  | sel (w : Slot)
  /-- R116: Zero-extended field extract. -/
  | ext (w : Slot)
  /-- R116: Sign-extended field extract. -/
  | exts (w : Slot)
  /-- R116: Field insert. -/
  | ins (w : Slot)
  /-- R115: Count leading zeros. -/
  | clz (w : Slot)
  /-- R115: Population count. -/
  | popc (w : Slot)
  /-- R115: Add with carry-in. -/
  | addc (w : Slot)
  /-- R115: Carry out of an add. -/
  | carry (w : Slot)
  /-- R115: Subtract with borrow. -/
  | subb (w : Slot)
  /-- R115: Borrow out of a subtract. -/
  | borrow (w : Slot)
  /-- R115: Low word of a product. -/
  | mullo (w : Slot)
  /-- R115: Signed high word of a product. -/
  | mulhi (w : Slot)
  /-- R115: Unsigned high word of a product. -/
  | mulhiu (w : Slot)
  /-- R115: Extended form of ADD. -/
  | addExt (w : Slot)
  /-- R115: Extended form of SUB. -/
  | subExt (w : Slot)
  /-- R115: Extended form of ADD.S. -/
  | addSExt (w : Slot)
  /-- R115: Extended form of SUB.S. -/
  | subSExt (w : Slot)
  /-- R115: Extended form of AND. -/
  | andExt (w : Slot)
  /-- R115: Extended form of OR. -/
  | orExt (w : Slot)
  /-- R115: Extended form of XOR. -/
  | xorExt (w : Slot)
  /-- R115: Extended form of ANDN. -/
  | andnExt (w : Slot)
  /-- R115: Extended form of SHL. -/
  | shlExt (w : Slot)
  /-- R115: Extended form of SHR. -/
  | shrExt (w : Slot)
  /-- R115: Extended form of SAR. -/
  | sarExt (w : Slot)
  /-- R115: Extended form of ROR. -/
  | rorExt (w : Slot)
  /-- R115: Extended form of MIN. -/
  | minExt (w : Slot)
  /-- R115: Extended form of MAX. -/
  | maxExt (w : Slot)
  /-- R115: Extended form of MINU. -/
  | minuExt (w : Slot)
  /-- R115: Extended form of MAXU. -/
  | maxuExt (w : Slot)
  /-- R115: Extended form of CMPEQ. -/
  | cmpeqExt (w : Slot)
  /-- R115: Extended form of CMPNE. -/
  | cmpneExt (w : Slot)
  /-- R115: Extended form of CMPLT. -/
  | cmpltExt (w : Slot)
  /-- R115: Extended form of CMPLE. -/
  | cmpleExt (w : Slot)
  /-- R115: Extended form of CMPLTU. -/
  | cmpltuExt (w : Slot)
  /-- R115: Extended form of CMPLEU. -/
  | cmpleuExt (w : Slot)
  /-- R115: Extended form of SEL. -/
  | selExt (w : Slot)
  /-- R116: Extended form of EXT. -/
  | extExt (w : Slot)
  /-- R116: Extended form of EXTS. -/
  | extsExt (w : Slot)
  /-- R116: Extended form of INS. -/
  | insExt (w : Slot)
  /-- R115: Extended form of CLZ. -/
  | clzExt (w : Slot)
  /-- R115: Extended form of POPC. -/
  | popcExt (w : Slot)
  /-- R115: Extended form of ADDC. -/
  | addcExt (w : Slot)
  /-- R115: Extended form of CARRY. -/
  | carryExt (w : Slot)
  /-- R115: Extended form of SUBB. -/
  | subbExt (w : Slot)
  /-- R115: Extended form of BORROW. -/
  | borrowExt (w : Slot)
  /-- R115: Extended form of MULLO. -/
  | mulloExt (w : Slot)
  /-- R115: Extended form of MULHI. -/
  | mulhiExt (w : Slot)
  /-- R115: Extended form of MULHIU. -/
  | mulhiuExt (w : Slot)
  /-- R117: Address add. -/
  | aadd (w : Slot)
  /-- R117: Address subtract. -/
  | asub (w : Slot)
  /-- R117: Scaled index add. -/
  | aidx (w : Slot)
  /-- R117: Circular increment. -/
  | acirc (w : Slot)
  /-- R117: Address AND. -/
  | aand (w : Slot)
  /-- R117: Address OR. -/
  | aor (w : Slot)
  /-- R117: Address shift left. -/
  | ashl (w : Slot)
  /-- R117: Address shift right. -/
  | ashr (w : Slot)
  /-- R117: Test of bit 63. -/
  | atop (w : Slot)
  /-- R117: 64-bit compare equal. -/
  | acmpeq (w : Slot)
  /-- R117: 64-bit unsigned less-than. -/
  | acmpltu (w : Slot)
  /-- R117: Joins two 32-bit halves. -/
  | ajoin (w : Slot)
  /-- R117: Extended form of AADD. -/
  | aaddExt (w : Slot)
  /-- R117: Extended form of ASUB. -/
  | asubExt (w : Slot)
  /-- R117: Extended form of AIDX. -/
  | aidxExt (w : Slot)
  /-- R117: Extended form of ACIRC. -/
  | acircExt (w : Slot)
  /-- R117: Extended form of AAND. -/
  | aandExt (w : Slot)
  /-- R117: Extended form of AOR. -/
  | aorExt (w : Slot)
  /-- R117: Extended form of ASHL. -/
  | ashlExt (w : Slot)
  /-- R117: Extended form of ASHR. -/
  | ashrExt (w : Slot)
  /-- R117: Extended form of ATOP. -/
  | atopExt (w : Slot)
  /-- R117: Extended form of ACMPEQ. -/
  | acmpeqExt (w : Slot)
  /-- R117: Extended form of ACMPLTU. -/
  | acmpltuExt (w : Slot)
  /-- R117: Extended form of AJOIN. -/
  | ajoinExt (w : Slot)
  /-- R118: Sets pk to 1 when any bit of the source is set. -/
  | pnz (w : Slot) (k : BitVec 4)
  /-- R143: Floating add, rounding mode in the low ID bits. -/
  | vfadd (w : Slot) (rm : Rm)
  /-- R143: Floating subtract. -/
  | vfsub (w : Slot) (rm : Rm)
  /-- R143: Floating multiply. -/
  | vfmul (w : Slot) (rm : Rm)
  /-- R143: Fused multiply-add. -/
  | vfma (w : Slot) (rm : Rm)
  /-- R143: Floating minimum. -/
  | vfmin (w : Slot)
  /-- R143: Floating maximum. -/
  | vfmax (w : Slot)
  /-- R142: Floating compare equal, to a mask. -/
  | vfcmpeq (w : Slot)
  /-- R142: Floating less-than, to a mask. -/
  | vfcmplt (w : Slot)
  /-- R142: Floating less-or-equal, to a mask. -/
  | vfcmple (w : Slot)
  /-- R142: Floating unordered compare. -/
  | vfcmpun (w : Slot)
  /-- R146: Floating sum reduction. -/
  | vfradd (w : Slot)
  /-- R146: Floating max reduction. -/
  | vfrmax (w : Slot)
  /-- R146: Floating min reduction. -/
  | vfrmin (w : Slot)
  /-- R149: Format conversion. -/
  | cvt (w : Slot)
  /-- R150: Conversion with a running-maximum update of an am register. -/
  | cvtAmax (w : Slot)
  /-- R140: Integer vector add. -/
  | vadd (w : Slot)
  /-- R140: Integer vector subtract. -/
  | vsub (w : Slot)
  /-- R140: Saturating signed add. -/
  | vaddS (w : Slot)
  /-- R140: Saturating signed subtract. -/
  | vsubS (w : Slot)
  /-- R140: Saturating unsigned add. -/
  | vadduS (w : Slot)
  /-- R140: Saturating unsigned subtract. -/
  | vsubuS (w : Slot)
  /-- R140: Integer multiply. -/
  | vmul (w : Slot)
  /-- R140: Signed minimum. -/
  | vmin (w : Slot)
  /-- R140: Signed maximum. -/
  | vmax (w : Slot)
  /-- R140: Unsigned minimum. -/
  | vminu (w : Slot)
  /-- R140: Unsigned maximum. -/
  | vmaxu (w : Slot)
  /-- R140: Absolute value. -/
  | vabs (w : Slot)
  /-- R140: Vector shift left. -/
  | vshl (w : Slot)
  /-- R140: Vector logical shift right. -/
  | vshr (w : Slot)
  /-- R140: Vector arithmetic shift right. -/
  | vsar (w : Slot)
  /-- R141: Vector AND. -/
  | vand (w : Slot)
  /-- R141: Vector OR. -/
  | vor (w : Slot)
  /-- R141: Vector XOR. -/
  | vxor (w : Slot)
  /-- R141: Vector AND-NOT. -/
  | vandn (w : Slot)
  /-- R142: Integer compare equal. -/
  | vcmpeq (w : Slot)
  /-- R142: Integer compare not equal. -/
  | vcmpne (w : Slot)
  /-- R142: Signed less-than. -/
  | vcmplt (w : Slot)
  /-- R142: Signed less-or-equal. -/
  | vcmple (w : Slot)
  /-- R142: Unsigned less-than. -/
  | vcmpltu (w : Slot)
  /-- R142: Unsigned less-or-equal. -/
  | vcmpleu (w : Slot)
  /-- R146: Integer sum reduction. -/
  | vradd (w : Slot)
  /-- R146: Integer max reduction. -/
  | vrmax (w : Slot)
  /-- R146: Integer min reduction. -/
  | vrmin (w : Slot)
  /-- R147: Packed INT8 dot products into INT32 lanes. -/
  | vdot4S (w : Slot)
  /-- R151: Counter-based mixing function. -/
  | vmix (w : Slot)
  /-- R144: Permute elements. -/
  | vperm (w : Slot)
  /-- R144: Broadcast a scalar. -/
  | vbcast (w : Slot)
  /-- R144: Lane rotate. -/
  | vrot (w : Slot)
  /-- R144: Insert an element. -/
  | vins (w : Slot)
  /-- R144: Extract an element. -/
  | vext (w : Slot)
  /-- R145: Narrowing pack. -/
  | vpack (w : Slot)
  /-- R145: Saturating narrowing pack. -/
  | vpackS (w : Slot)
  /-- R145: Widen the low half. -/
  | vunpkl (w : Slot)
  /-- R145: Widen the high half. -/
  | vunpkh (w : Slot)
  /-- R144: Masked merge. -/
  | vsel (w : Slot)
  /-- R144: Retag a vector. -/
  | vtag (w : Slot)
  /-- R144: Index sequence. -/
  | viota (w : Slot)
  /-- R143: Extended form of VFADD. -/
  | vfaddExt (w : Slot) (rm : Rm)
  /-- R143: Extended form of VFSUB. -/
  | vfsubExt (w : Slot) (rm : Rm)
  /-- R143: Extended form of VFMUL. -/
  | vfmulExt (w : Slot) (rm : Rm)
  /-- R143: Extended form of VFMA. -/
  | vfmaExt (w : Slot) (rm : Rm)
  /-- R143: Extended form of VFMIN. -/
  | vfminExt (w : Slot)
  /-- R143: Extended form of VFMAX. -/
  | vfmaxExt (w : Slot)
  /-- R142: Extended form of VFCMPEQ. -/
  | vfcmpeqExt (w : Slot)
  /-- R142: Extended form of VFCMPLT. -/
  | vfcmpltExt (w : Slot)
  /-- R142: Extended form of VFCMPLE. -/
  | vfcmpleExt (w : Slot)
  /-- R142: Extended form of VFCMPUN. -/
  | vfcmpunExt (w : Slot)
  /-- R146: Extended form of VFRADD. -/
  | vfraddExt (w : Slot)
  /-- R146: Extended form of VFRMAX. -/
  | vfrmaxExt (w : Slot)
  /-- R146: Extended form of VFRMIN. -/
  | vfrminExt (w : Slot)
  /-- R149: Extended form of CVT. -/
  | cvtExt (w : Slot)
  /-- R150: Extended form of CVT.AMAX. -/
  | cvtAmaxExt (w : Slot)
  /-- R140: Extended form of VADD. -/
  | vaddExt (w : Slot)
  /-- R140: Extended form of VSUB. -/
  | vsubExt (w : Slot)
  /-- R140: Extended form of VADD.S. -/
  | vaddSExt (w : Slot)
  /-- R140: Extended form of VSUB.S. -/
  | vsubSExt (w : Slot)
  /-- R140: Extended form of VADDU.S. -/
  | vadduSExt (w : Slot)
  /-- R140: Extended form of VSUBU.S. -/
  | vsubuSExt (w : Slot)
  /-- R140: Extended form of VMUL. -/
  | vmulExt (w : Slot)
  /-- R140: Extended form of VMIN. -/
  | vminExt (w : Slot)
  /-- R140: Extended form of VMAX. -/
  | vmaxExt (w : Slot)
  /-- R140: Extended form of VMINU. -/
  | vminuExt (w : Slot)
  /-- R140: Extended form of VMAXU. -/
  | vmaxuExt (w : Slot)
  /-- R140: Extended form of VABS. -/
  | vabsExt (w : Slot)
  /-- R140: Extended form of VSHL. -/
  | vshlExt (w : Slot)
  /-- R140: Extended form of VSHR. -/
  | vshrExt (w : Slot)
  /-- R140: Extended form of VSAR. -/
  | vsarExt (w : Slot)
  /-- R141: Extended form of VAND. -/
  | vandExt (w : Slot)
  /-- R141: Extended form of VOR. -/
  | vorExt (w : Slot)
  /-- R141: Extended form of VXOR. -/
  | vxorExt (w : Slot)
  /-- R141: Extended form of VANDN. -/
  | vandnExt (w : Slot)
  /-- R142: Extended form of VCMPEQ. -/
  | vcmpeqExt (w : Slot)
  /-- R142: Extended form of VCMPNE. -/
  | vcmpneExt (w : Slot)
  /-- R142: Extended form of VCMPLT. -/
  | vcmpltExt (w : Slot)
  /-- R142: Extended form of VCMPLE. -/
  | vcmpleExt (w : Slot)
  /-- R142: Extended form of VCMPLTU. -/
  | vcmpltuExt (w : Slot)
  /-- R142: Extended form of VCMPLEU. -/
  | vcmpleuExt (w : Slot)
  /-- R146: Extended form of VRADD. -/
  | vraddExt (w : Slot)
  /-- R146: Extended form of VRMAX. -/
  | vrmaxExt (w : Slot)
  /-- R146: Extended form of VRMIN. -/
  | vrminExt (w : Slot)
  /-- R147: Extended form of VDOT4.S. -/
  | vdot4SExt (w : Slot)
  /-- R151: Extended form of VMIX. -/
  | vmixExt (w : Slot)
  /-- R144: Extended form of VPERM. -/
  | vpermExt (w : Slot)
  /-- R144: Extended form of VBCAST. -/
  | vbcastExt (w : Slot)
  /-- R144: Extended form of VROT. -/
  | vrotExt (w : Slot)
  /-- R144: Extended form of VINS. -/
  | vinsExt (w : Slot)
  /-- R144: Extended form of VEXT. -/
  | vextExt (w : Slot)
  /-- R145: Extended form of VPACK. -/
  | vpackExt (w : Slot)
  /-- R145: Extended form of VPACK.S. -/
  | vpackSExt (w : Slot)
  /-- R145: Extended form of VUNPKL. -/
  | vunpklExt (w : Slot)
  /-- R145: Extended form of VUNPKH. -/
  | vunpkhExt (w : Slot)
  /-- R144: Extended form of VSEL. -/
  | vselExt (w : Slot)
  /-- R144: Extended form of VTAG. -/
  | vtagExt (w : Slot)
  /-- R144: Extended form of VIOTA. -/
  | viotaExt (w : Slot)
  /-- R152: Reciprocal. -/
  | rcp (w : Slot)
  /-- R152: Reciprocal square root. -/
  | rsq (w : Slot)
  /-- R152: Square root. -/
  | sqrt (w : Slot)
  /-- R152: Power of two. -/
  | exp2 (w : Slot)
  /-- R152: Base-2 logarithm. -/
  | log2 (w : Slot)
  /-- R152: Hyperbolic tangent. -/
  | tanh (w : Slot)
  /-- R152: Logistic sigmoid. -/
  | sigm (w : Slot)
  /-- R152: Error function. -/
  | erf (w : Slot)
  /-- R159: Load a sign-extended byte. -/
  | ldB (w : Slot)
  /-- R159: Load a zero-extended byte. -/
  | ldBu (w : Slot)
  /-- R159: Load a sign-extended halfword. -/
  | ldH (w : Slot)
  /-- R159: Load a zero-extended halfword. -/
  | ldHu (w : Slot)
  /-- R159: Load a word. -/
  | ldW (w : Slot)
  /-- R159: Vector load. -/
  | vld (w : Slot)
  /-- R160: Strided gather. -/
  | vlds (w : Slot)
  /-- R159: Store a byte. -/
  | stB (w : Slot)
  /-- R159: Store a halfword. -/
  | stH (w : Slot)
  /-- R159: Store a word. -/
  | stW (w : Slot)
  /-- R159: Store a doubleword. -/
  | stD (w : Slot)
  /-- R159: Vector store. -/
  | vst (w : Slot)
  /-- R159: Byte-masked vector store. -/
  | vstm (w : Slot)
  /-- R161: Atomic add. -/
  | atadd (w : Slot)
  /-- R161: Atomic signed minimum. -/
  | atmin (w : Slot)
  /-- R161: Atomic signed maximum. -/
  | atmax (w : Slot)
  /-- R161: Atomic unsigned minimum. -/
  | atminu (w : Slot)
  /-- R161: Atomic unsigned maximum. -/
  | atmaxu (w : Slot)
  /-- R161: Atomic AND. -/
  | atand (w : Slot)
  /-- R161: Atomic OR. -/
  | ator (w : Slot)
  /-- R161: Atomic swap. -/
  | atswp (w : Slot)
  /-- R161: Atomic compare-and-swap. -/
  | atcas (w : Slot)
  /-- R162: Pattern fill. -/
  | fill (w : Slot)
  /-- R163: Pushes block scales into a Saffron queue. -/
  | ldsc (w : Slot)
  /-- R167: Asks whether a main-memory range can be copied now. -/
  | probe (w : Slot)
  /-- R164: Sets a value watchpoint. -/
  | wpset (w : Slot)
  /-- R168: Evacuates rows and slots for a lower operating point. -/
  | evac (w : Slot)
  /-- R159: Extended form of LD.B. -/
  | ldBExt (w : Slot)
  /-- R159: Extended form of LD.BU. -/
  | ldBuExt (w : Slot)
  /-- R159: Extended form of LD.H. -/
  | ldHExt (w : Slot)
  /-- R159: Extended form of LD.HU. -/
  | ldHuExt (w : Slot)
  /-- R159: Extended form of LD.W. -/
  | ldWExt (w : Slot)
  /-- R159: Extended form of VLD. -/
  | vldExt (w : Slot)
  /-- R160: Extended form of VLDS. -/
  | vldsExt (w : Slot)
  /-- R159: Extended form of ST.B. -/
  | stBExt (w : Slot)
  /-- R159: Extended form of ST.H. -/
  | stHExt (w : Slot)
  /-- R159: Extended form of ST.W. -/
  | stWExt (w : Slot)
  /-- R159: Extended form of ST.D. -/
  | stDExt (w : Slot)
  /-- R159: Extended form of VST. -/
  | vstExt (w : Slot)
  /-- R159: Extended form of VSTM. -/
  | vstmExt (w : Slot)
  /-- R161: Extended form of ATADD. -/
  | ataddExt (w : Slot)
  /-- R161: Extended form of ATMIN. -/
  | atminExt (w : Slot)
  /-- R161: Extended form of ATMAX. -/
  | atmaxExt (w : Slot)
  /-- R161: Extended form of ATMINU. -/
  | atminuExt (w : Slot)
  /-- R161: Extended form of ATMAXU. -/
  | atmaxuExt (w : Slot)
  /-- R161: Extended form of ATAND. -/
  | atandExt (w : Slot)
  /-- R161: Extended form of ATOR. -/
  | atorExt (w : Slot)
  /-- R161: Extended form of ATSWP. -/
  | atswpExt (w : Slot)
  /-- R161: Extended form of ATCAS. -/
  | atcasExt (w : Slot)
  /-- R162: Extended form of FILL. -/
  | fillExt (w : Slot)
  /-- R163: Extended form of LDSC. -/
  | ldscExt (w : Slot)
  /-- R167: Extended form of PROBE. -/
  | probeExt (w : Slot)
  /-- R164: Extended form of WPSET. -/
  | wpsetExt (w : Slot)
  /-- R168: Extended form of EVAC. -/
  | evacExt (w : Slot)
  /-- R173: Queues a block transfer of one tile. -/
  | cpy (w : Slot)
  /-- R178: Queues a stream into the scratch. -/
  | cpys (w : Slot)
  /-- R180: Queues a transfer for the next communication step. -/
  | xfer (w : Slot)
  /-- R181: 64-bit fetch-and-add in main memory. -/
  | catom (w : Slot)
  /-- R176: Writes a shape record's tile coordinates. -/
  | shape (w : Slot)
  /-- R177: Loads a decode table. -/
  | dct (w : Slot)
  /-- R175: Clears chunk-bitmap bits. -/
  | cbclr (w : Slot)
  /-- R179: Resets a stream write pointer. -/
  | wpclr (w : Slot)
  /-- R173: Extended form of CPY. -/
  | cpyExt (w : Slot)
  /-- R178: Extended form of CPYS. -/
  | cpysExt (w : Slot)
  /-- R180: Extended form of XFER. -/
  | xferExt (w : Slot)
  /-- R181: Extended form of CATOM. -/
  | catomExt (w : Slot)
  /-- R176: Extended form of SHAPE. -/
  | shapeExt (w : Slot)
  /-- R177: Extended form of DCT. -/
  | dctExt (w : Slot)
  /-- R175: Extended form of CBCLR. -/
  | cbclrExt (w : Slot)
  /-- R179: Extended form of WPCLR. -/
  | wpclrExt (w : Slot)
  /-- R182: Posts a notification to the launching system core. -/
  | signal (w : Slot)
  /-- R182: Writes a software mark into the Garret ring. -/
  | gmark (w : Slot)
  /-- R193: Takes the engine and sets its configuration. -/
  | mcfg (w : Slot) (e : Bool)
  /-- R194: Ends a configuration at its waiting flip. -/
  | mdrain (w : Guard) (e : Bool)
  /-- R201: Checks and starts a microprogram routine at a start offset. -/
  | mcall (w : Slot) (e : Bool)
  /-- R196: Claims a Larder slot. -/
  | claim (w : Slot) (e : Bool)
  /-- R196: Releases a Larder slot. -/
  | release (w : Slot) (e : Bool)
  /-- R197: Writes one Larder row. -/
  | mput (w : Slot) (e : Bool)
  /-- R200: Drains one accumulator row to a vector. -/
  | mget (w : Slot) (e : Bool)
  /-- R199: Clears one accumulator tile. -/
  | mzero (w : Slot) (e : Bool)
  /-- R197: Reads one Larder row. -/
  | mlget (w : Slot) (e : Bool)
  /-- R209: The handler patches a micro-word or a routine table entry. -/
  | mpsw (w : Slot) (e : Bool)
  /-- R210: Lends a vector bank to slot 6. -/
  | lend (w : Slot)
  /-- R210: Returns a vector bank to its home slot. -/
  | reclaim (w : Slot)
  /-- R193: Extended form of MCFG. -/
  | mcfgExt (w : Slot) (e : Bool)
  /-- R194: Extended form of MDRAIN. -/
  | mdrainExt (w : Slot) (e : Bool)
  /-- R201: Extended form of MCALL. -/
  | mcallExt (w : Slot) (e : Bool)
  /-- R196: Extended form of CLAIM. -/
  | claimExt (w : Slot) (e : Bool)
  /-- R196: Extended form of RELEASE. -/
  | releaseExt (w : Slot) (e : Bool)
  /-- R197: Extended form of MPUT. -/
  | mputExt (w : Slot) (e : Bool)
  /-- R200: Extended form of MGET. -/
  | mgetExt (w : Slot) (e : Bool)
  /-- R199: Extended form of MZERO. -/
  | mzeroExt (w : Slot) (e : Bool)
  /-- R197: Extended form of MLGET. -/
  | mlgetExt (w : Slot) (e : Bool)
  /-- R209: Extended form of MPSW. -/
  | mpswExt (w : Slot) (e : Bool)
  /-- R210: Extended form of LEND. -/
  | lendExt (w : Slot)
  /-- R210: Extended form of RECLAIM. -/
  | reclaimExt (w : Slot)
  /-- R208: Ends the routine and writes the open tiles. -/
  | mend
  /-- R206: Selects the A descriptor from an mp register. -/
  | msela (m : BitVec 3)
  /-- R206: Selects the B descriptor from an mp register. -/
  | mselb (m : BitVec 3)
  /-- R206: Loads an index register from a field of an mp register. -/
  | mldx (d m : BitVec 3) (f : BitVec 2)
  /-- R206: Sets an index register to an immediate. -/
  | msetx (d : BitVec 3) (imm : BitVec 16)
  /-- R206: Adds a signed immediate to an index register. -/
  | maddx (d : BitVec 3) (imm : BitVec 16)
  /-- R206: Opens a micro-loop. -/
  | mloop (d : BitVec 3) (e : BitVec 9)
  /-- R206: Closes a micro-loop iteration. -/
  | mnext
  /-- R206: Sets the block length. -/
  | mblk (f : BitVec 3)
  /-- R206: Opens an accumulator tile. -/
  | macc (q : BitVec 2) (d : BitVec 3) (z : Bool)
  /-- R207: Accumulates a 64 x 64 product into an open tile, popping scales. -/
  | mmac (q : BitVec 2) (di dj dk dl : BitVec 3)
  /-- R206: Sets the sparsity switch. -/
  | mspr (on : Bool)
  /-- R206: Branches if an index register is zero. -/
  | mbz (d : BitVec 3) (t : BitVec 9)
  /-- R206: Jumps unconditionally. -/
  | mjmp (t : BitVec 9)
  /-- R206: Idles for n + 1 cycles. -/
  | mwait (n : BitVec 16)
  /-- R206: Does nothing for one cycle. -/
  | mnop
  /-- R361: A host read or posted write through a VF's BAR2 window or its MBOX window reaches the partition's memory, is dirty-logged, and is completed as Unsupported Request past RANGES or discarded when MBXBASE is 0. -/
  | hostFunctionAccess (a : HostAccess)
  /-- R332: A partition kernel write to SBCTL sets or clears the core's sample-buffer control block address and clears the per-core count of unrecorded drops. -/
  | sbctlWrite (v : W64)
  deriving DecidableEq, Repr

end Sys2Proof
end

