-- ==== Sys2Proof/Decode.lean ====
section
/-!
DEFINITION. From bits to instructions and back: the fields of headers, slot words and fetch packets (R63, R64, R68,
R69), the destination maps of the slot classes (R78, R115 to R210), and the micro-operations of an engine (R206).
A slot word has a meaning only with its slot's class, so decodeSlot takes the class.
-/
namespace Sys2Proof

/-- RM bits of a rounding mode (R99). -/
def Rm.bits (rm : Rm) : BitVec 9 :=
  match rm with
  | .rne => 0 | .rtz => 1 | .rdn => 2 | .rup => 3

/-- The guard and SRC fields of a slot word (R69). -/
def Slot.ofWord (w : Word24) : Slot :=
  { gd := { n := w.getLsbD 23, g := w.extractLsb' 19 4 }, src := w.extractLsb' 10 9 }

/-- The DST field of a slot word (R69). -/
def slotDst (w : Word24) : BitVec 9 := w.extractLsb' 1 9

/-- The slot word with these fields and destination; bit 0 is 0 (R69). -/
def Slot.toWord (w : Slot) (d : BitVec 9) : Word24 :=
  BitVec.ofBool w.gd.n ++ (w.gd.g ++ (w.src ++ (d ++ (0#1 : BitVec 1))))

/-- The rounding mode of a trigger ID: RM is its bits [1:0] (R99). -/
def Rm.ofDst (d : BitVec 9) : Rm :=
  match (d.extractLsb' 0 2).toNat with
  | 0 => .rne | 1 => .rtz | 2 => .rdn | _ => .rup

/-- The engine of an ME trigger ID: ME0 in 0x110-0x11F and 0x160-0x16F, ME1 in 0x120-0x12F and 0x170-0x17F (R78). -/
def engOfDst (d : BitVec 9) : Bool := if 0x160 ≤ d.toNat then 0x170 ≤ d.toNat else 0x120 ≤ d.toNat

/-- The operations a slot word can trigger, without the word's fields: the names of the trigger IDs of R78. -/
inductive SlotOp where
  | br | bri | call | calli | ret | loop | lexit | mpcset | ntreq | bar | waitbm | waitwp | trap | eret | timerset
  | rdsched | recw | lease | halt | brExt | briExt | callExt | calliExt | retExt | loopExt | lexitExt | mpcsetExt
  | ntreqExt | barExt | waitbmExt | waitwpExt | trapExt | eretExt | timersetExt | rdschedExt | recwExt | leaseExt
  | haltExt | add | sub | addS | subS | and | or | xor | andn | shl | shr | sar | ror | min | max | minu | maxu
  | cmpeq | cmpne | cmplt | cmple | cmpltu | cmpleu | sel | ext | exts | ins | clz | popc | addc | carry | subb
  | borrow | mullo | mulhi | mulhiu | addExt | subExt | addSExt | subSExt | andExt | orExt | xorExt | andnExt
  | shlExt | shrExt | sarExt | rorExt | minExt | maxExt | minuExt | maxuExt | cmpeqExt | cmpneExt | cmpltExt
  | cmpleExt | cmpltuExt | cmpleuExt | selExt | extExt | extsExt | insExt | clzExt | popcExt | addcExt | carryExt
  | subbExt | borrowExt | mulloExt | mulhiExt | mulhiuExt | aadd | asub | aidx | acirc | aand | aor | ashl | ashr
  | atop | acmpeq | acmpltu | ajoin | aaddExt | asubExt | aidxExt | acircExt | aandExt | aorExt | ashlExt | ashrExt
  | atopExt | acmpeqExt | acmpltuExt | ajoinExt | pnz | vfadd | vfsub | vfmul | vfma | vfmin | vfmax | vfcmpeq
  | vfcmplt | vfcmple | vfcmpun | vfradd | vfrmax | vfrmin | cvt | cvtAmax | vadd | vsub | vaddS | vsubS | vadduS
  | vsubuS | vmul | vmin | vmax | vminu | vmaxu | vabs | vshl | vshr | vsar | vand | vor | vxor | vandn | vcmpeq
  | vcmpne | vcmplt | vcmple | vcmpltu | vcmpleu | vradd | vrmax | vrmin | vdot4S | vmix | vperm | vbcast | vrot
  | vins | vext | vpack | vpackS | vunpkl | vunpkh | vsel | vtag | viota | vfaddExt | vfsubExt | vfmulExt | vfmaExt
  | vfminExt | vfmaxExt | vfcmpeqExt | vfcmpltExt | vfcmpleExt | vfcmpunExt | vfraddExt | vfrmaxExt | vfrminExt
  | cvtExt | cvtAmaxExt | vaddExt | vsubExt | vaddSExt | vsubSExt | vadduSExt | vsubuSExt | vmulExt | vminExt
  | vmaxExt | vminuExt | vmaxuExt | vabsExt | vshlExt | vshrExt | vsarExt | vandExt | vorExt | vxorExt | vandnExt
  | vcmpeqExt | vcmpneExt | vcmpltExt | vcmpleExt | vcmpltuExt | vcmpleuExt | vraddExt | vrmaxExt | vrminExt
  | vdot4SExt | vmixExt | vpermExt | vbcastExt | vrotExt | vinsExt | vextExt | vpackExt | vpackSExt | vunpklExt
  | vunpkhExt | vselExt | vtagExt | viotaExt | rcp | rsq | sqrt | exp2 | log2 | tanh | sigm | erf | ldB | ldBu | ldH
  | ldHu | ldW | vld | vlds | stB | stH | stW | stD | vst | vstm | atadd | atmin | atmax | atminu | atmaxu | atand
  | ator | atswp | atcas | fill | ldsc | probe | wpset | evac | ldBExt | ldBuExt | ldHExt | ldHuExt | ldWExt | vldExt
  | vldsExt | stBExt | stHExt | stWExt | stDExt | vstExt | vstmExt | ataddExt | atminExt | atmaxExt | atminuExt
  | atmaxuExt | atandExt | atorExt | atswpExt | atcasExt | fillExt | ldscExt | probeExt | wpsetExt | evacExt | cpy
  | cpys | xfer | catom | shape | dct | cbclr | wpclr | cpyExt | cpysExt | xferExt | catomExt | shapeExt | dctExt
  | cbclrExt | wpclrExt | signal | gmark | mcfg | mdrain | mcall | claim | release | mput | mget | mzero | mlget
  | mpsw | lend | reclaim | mcfgExt | mdrainExt | mcallExt | claimExt | releaseExt | mputExt | mgetExt | mzeroExt
  | mlgetExt | mpswExt | lendExt | reclaimExt
  deriving DecidableEq, Repr

/-- The CTL triggers of class 0 (R119). -/
def trigCtl (d : BitVec 9) : Option SlotOp :=
  match d.toNat with
  | 0x110 => some .br
  | 0x111 => some .bri
  | 0x112 => some .call
  | 0x113 => some .calli
  | 0x114 => some .ret
  | 0x115 => some .loop
  | 0x116 => some .lexit
  | 0x117 => some .mpcset
  | 0x118 => some .ntreq
  | 0x119 => some .bar
  | 0x11A => some .waitbm
  | 0x11B => some .waitwp
  | 0x11C => some .trap
  | 0x11D => some .eret
  | 0x11E => some .timerset
  | 0x11F => some .rdsched
  | 0x120 => some .recw
  | 0x121 => some .lease
  | 0x122 => some .halt
  | 0x160 => some .brExt
  | 0x161 => some .briExt
  | 0x162 => some .callExt
  | 0x163 => some .calliExt
  | 0x164 => some .retExt
  | 0x165 => some .loopExt
  | 0x166 => some .lexitExt
  | 0x167 => some .mpcsetExt
  | 0x168 => some .ntreqExt
  | 0x169 => some .barExt
  | 0x16A => some .waitbmExt
  | 0x16B => some .waitwpExt
  | 0x16C => some .trapExt
  | 0x16D => some .eretExt
  | 0x16E => some .timersetExt
  | 0x16F => some .rdschedExt
  | 0x170 => some .recwExt
  | 0x171 => some .leaseExt
  | 0x172 => some .haltExt
  | _ => none

/-- The SA and AU triggers of classes 0 and 1 (R115, R117). -/
def trigSa (d : BitVec 9) : Option SlotOp :=
  match d.toNat with
  | 0x128 => some .add
  | 0x129 => some .sub
  | 0x12A => some .addS
  | 0x12B => some .subS
  | 0x12C => some .and
  | 0x12D => some .or
  | 0x12E => some .xor
  | 0x12F => some .andn
  | 0x130 => some .shl
  | 0x131 => some .shr
  | 0x132 => some .sar
  | 0x133 => some .ror
  | 0x134 => some .min
  | 0x135 => some .max
  | 0x136 => some .minu
  | 0x137 => some .maxu
  | 0x138 => some .cmpeq
  | 0x139 => some .cmpne
  | 0x13A => some .cmplt
  | 0x13B => some .cmple
  | 0x13C => some .cmpltu
  | 0x13D => some .cmpleu
  | 0x13E => some .sel
  | 0x13F => some .ext
  | 0x140 => some .exts
  | 0x141 => some .ins
  | 0x142 => some .clz
  | 0x143 => some .popc
  | 0x144 => some .addc
  | 0x145 => some .carry
  | 0x146 => some .subb
  | 0x147 => some .borrow
  | 0x148 => some .mullo
  | 0x149 => some .mulhi
  | 0x14A => some .mulhiu
  | 0x150 => some .aadd
  | 0x151 => some .asub
  | 0x152 => some .aidx
  | 0x153 => some .acirc
  | 0x154 => some .aand
  | 0x155 => some .aor
  | 0x156 => some .ashl
  | 0x157 => some .ashr
  | 0x158 => some .atop
  | 0x159 => some .acmpeq
  | 0x15A => some .acmpltu
  | 0x15B => some .ajoin
  | 0x178 => some .addExt
  | 0x179 => some .subExt
  | 0x17A => some .addSExt
  | 0x17B => some .subSExt
  | 0x17C => some .andExt
  | 0x17D => some .orExt
  | 0x17E => some .xorExt
  | 0x17F => some .andnExt
  | 0x180 => some .shlExt
  | 0x181 => some .shrExt
  | 0x182 => some .sarExt
  | 0x183 => some .rorExt
  | 0x184 => some .minExt
  | 0x185 => some .maxExt
  | 0x186 => some .minuExt
  | 0x187 => some .maxuExt
  | 0x188 => some .cmpeqExt
  | 0x189 => some .cmpneExt
  | 0x18A => some .cmpltExt
  | 0x18B => some .cmpleExt
  | 0x18C => some .cmpltuExt
  | 0x18D => some .cmpleuExt
  | 0x18E => some .selExt
  | 0x18F => some .extExt
  | 0x190 => some .extsExt
  | 0x191 => some .insExt
  | 0x192 => some .clzExt
  | 0x193 => some .popcExt
  | 0x194 => some .addcExt
  | 0x195 => some .carryExt
  | 0x196 => some .subbExt
  | 0x197 => some .borrowExt
  | 0x198 => some .mulloExt
  | 0x199 => some .mulhiExt
  | 0x19A => some .mulhiuExt
  | 0x1A0 => some .aaddExt
  | 0x1A1 => some .asubExt
  | 0x1A2 => some .aidxExt
  | 0x1A3 => some .acircExt
  | 0x1A4 => some .aandExt
  | 0x1A5 => some .aorExt
  | 0x1A6 => some .ashlExt
  | 0x1A7 => some .ashrExt
  | 0x1A8 => some .atopExt
  | 0x1A9 => some .acmpeqExt
  | 0x1AA => some .acmpltuExt
  | 0x1AB => some .ajoinExt
  | _ => none

/-- The predicate tests PNZ p1 to PNZ p14 of class 0 (R118). -/
def trigPred (d : BitVec 9) : Option SlotOp :=
  match d.toNat with
  | 0x1B1 => some .pnz
  | 0x1B2 => some .pnz
  | 0x1B3 => some .pnz
  | 0x1B4 => some .pnz
  | 0x1B5 => some .pnz
  | 0x1B6 => some .pnz
  | 0x1B7 => some .pnz
  | 0x1B8 => some .pnz
  | 0x1B9 => some .pnz
  | 0x1BA => some .pnz
  | 0x1BB => some .pnz
  | 0x1BC => some .pnz
  | 0x1BD => some .pnz
  | 0x1BE => some .pnz
  | _ => none

/-- The VA and SF triggers of classes 2 and 3 (R140 to R153). -/
def trigVec (d : BitVec 9) : Option SlotOp :=
  match d.toNat with
  | 0x110 => some .vfadd
  | 0x111 => some .vfadd
  | 0x112 => some .vfadd
  | 0x113 => some .vfadd
  | 0x114 => some .vfsub
  | 0x115 => some .vfsub
  | 0x116 => some .vfsub
  | 0x117 => some .vfsub
  | 0x118 => some .vfmul
  | 0x119 => some .vfmul
  | 0x11A => some .vfmul
  | 0x11B => some .vfmul
  | 0x11C => some .vfma
  | 0x11D => some .vfma
  | 0x11E => some .vfma
  | 0x11F => some .vfma
  | 0x120 => some .vfmin
  | 0x121 => some .vfmax
  | 0x122 => some .vfcmpeq
  | 0x123 => some .vfcmplt
  | 0x124 => some .vfcmple
  | 0x125 => some .vfcmpun
  | 0x126 => some .vfradd
  | 0x127 => some .vfrmax
  | 0x128 => some .vfrmin
  | 0x129 => some .cvt
  | 0x12A => some .cvtAmax
  | 0x130 => some .vadd
  | 0x131 => some .vsub
  | 0x132 => some .vaddS
  | 0x133 => some .vsubS
  | 0x134 => some .vadduS
  | 0x135 => some .vsubuS
  | 0x136 => some .vmul
  | 0x137 => some .vmin
  | 0x138 => some .vmax
  | 0x139 => some .vminu
  | 0x13A => some .vmaxu
  | 0x13B => some .vabs
  | 0x13C => some .vshl
  | 0x13D => some .vshr
  | 0x13E => some .vsar
  | 0x13F => some .vand
  | 0x140 => some .vor
  | 0x141 => some .vxor
  | 0x142 => some .vandn
  | 0x143 => some .vcmpeq
  | 0x144 => some .vcmpne
  | 0x145 => some .vcmplt
  | 0x146 => some .vcmple
  | 0x147 => some .vcmpltu
  | 0x148 => some .vcmpleu
  | 0x149 => some .vradd
  | 0x14A => some .vrmax
  | 0x14B => some .vrmin
  | 0x14C => some .vdot4S
  | 0x14D => some .vmix
  | 0x150 => some .vperm
  | 0x151 => some .vbcast
  | 0x152 => some .vrot
  | 0x153 => some .vins
  | 0x154 => some .vext
  | 0x155 => some .vpack
  | 0x156 => some .vpackS
  | 0x157 => some .vunpkl
  | 0x158 => some .vunpkh
  | 0x159 => some .vsel
  | 0x15A => some .vtag
  | 0x15B => some .viota
  | 0x160 => some .vfaddExt
  | 0x161 => some .vfaddExt
  | 0x162 => some .vfaddExt
  | 0x163 => some .vfaddExt
  | 0x164 => some .vfsubExt
  | 0x165 => some .vfsubExt
  | 0x166 => some .vfsubExt
  | 0x167 => some .vfsubExt
  | 0x168 => some .vfmulExt
  | 0x169 => some .vfmulExt
  | 0x16A => some .vfmulExt
  | 0x16B => some .vfmulExt
  | 0x16C => some .vfmaExt
  | 0x16D => some .vfmaExt
  | 0x16E => some .vfmaExt
  | 0x16F => some .vfmaExt
  | 0x170 => some .vfminExt
  | 0x171 => some .vfmaxExt
  | 0x172 => some .vfcmpeqExt
  | 0x173 => some .vfcmpltExt
  | 0x174 => some .vfcmpleExt
  | 0x175 => some .vfcmpunExt
  | 0x176 => some .vfraddExt
  | 0x177 => some .vfrmaxExt
  | 0x178 => some .vfrminExt
  | 0x179 => some .cvtExt
  | 0x17A => some .cvtAmaxExt
  | 0x180 => some .vaddExt
  | 0x181 => some .vsubExt
  | 0x182 => some .vaddSExt
  | 0x183 => some .vsubSExt
  | 0x184 => some .vadduSExt
  | 0x185 => some .vsubuSExt
  | 0x186 => some .vmulExt
  | 0x187 => some .vminExt
  | 0x188 => some .vmaxExt
  | 0x189 => some .vminuExt
  | 0x18A => some .vmaxuExt
  | 0x18B => some .vabsExt
  | 0x18C => some .vshlExt
  | 0x18D => some .vshrExt
  | 0x18E => some .vsarExt
  | 0x18F => some .vandExt
  | 0x190 => some .vorExt
  | 0x191 => some .vxorExt
  | 0x192 => some .vandnExt
  | 0x193 => some .vcmpeqExt
  | 0x194 => some .vcmpneExt
  | 0x195 => some .vcmpltExt
  | 0x196 => some .vcmpleExt
  | 0x197 => some .vcmpltuExt
  | 0x198 => some .vcmpleuExt
  | 0x199 => some .vraddExt
  | 0x19A => some .vrmaxExt
  | 0x19B => some .vrminExt
  | 0x19C => some .vdot4SExt
  | 0x19D => some .vmixExt
  | 0x1A0 => some .vpermExt
  | 0x1A1 => some .vbcastExt
  | 0x1A2 => some .vrotExt
  | 0x1A3 => some .vinsExt
  | 0x1A4 => some .vextExt
  | 0x1A5 => some .vpackExt
  | 0x1A6 => some .vpackSExt
  | 0x1A7 => some .vunpklExt
  | 0x1A8 => some .vunpkhExt
  | 0x1A9 => some .vselExt
  | 0x1AA => some .vtagExt
  | 0x1AB => some .viotaExt
  | 0x1B0 => some .rcp
  | 0x1B1 => some .rsq
  | 0x1B2 => some .sqrt
  | 0x1B3 => some .exp2
  | 0x1B4 => some .log2
  | 0x1B5 => some .tanh
  | 0x1B6 => some .sigm
  | 0x1B7 => some .erf
  | _ => none

/-- The LS triggers of classes 4 and 5 (R159 to R168). -/
def trigLs (d : BitVec 9) : Option SlotOp :=
  match d.toNat with
  | 0x110 => some .ldB
  | 0x111 => some .ldBu
  | 0x112 => some .ldH
  | 0x113 => some .ldHu
  | 0x114 => some .ldW
  | 0x115 => some .vld
  | 0x116 => some .vlds
  | 0x117 => some .stB
  | 0x118 => some .stH
  | 0x119 => some .stW
  | 0x11A => some .stD
  | 0x11B => some .vst
  | 0x11C => some .vstm
  | 0x11D => some .atadd
  | 0x11E => some .atmin
  | 0x11F => some .atmax
  | 0x120 => some .atminu
  | 0x121 => some .atmaxu
  | 0x122 => some .atand
  | 0x123 => some .ator
  | 0x124 => some .atswp
  | 0x125 => some .atcas
  | 0x126 => some .fill
  | 0x127 => some .ldsc
  | 0x128 => some .probe
  | 0x129 => some .wpset
  | 0x12A => some .evac
  | 0x160 => some .ldBExt
  | 0x161 => some .ldBuExt
  | 0x162 => some .ldHExt
  | 0x163 => some .ldHuExt
  | 0x164 => some .ldWExt
  | 0x165 => some .vldExt
  | 0x166 => some .vldsExt
  | 0x167 => some .stBExt
  | 0x168 => some .stHExt
  | 0x169 => some .stWExt
  | 0x16A => some .stDExt
  | 0x16B => some .vstExt
  | 0x16C => some .vstmExt
  | 0x16D => some .ataddExt
  | 0x16E => some .atminExt
  | 0x16F => some .atmaxExt
  | 0x170 => some .atminuExt
  | 0x171 => some .atmaxuExt
  | 0x172 => some .atandExt
  | 0x173 => some .atorExt
  | 0x174 => some .atswpExt
  | 0x175 => some .atcasExt
  | 0x176 => some .fillExt
  | 0x177 => some .ldscExt
  | 0x178 => some .probeExt
  | 0x179 => some .wpsetExt
  | 0x17A => some .evacExt
  | _ => none

/-- The ME triggers of class 6 (R191, R210). -/
def trigMe (d : BitVec 9) : Option SlotOp :=
  match d.toNat with
  | 0x110 => some .mcfg
  | 0x111 => some .mdrain
  | 0x112 => some .mcall
  | 0x113 => some .claim
  | 0x114 => some .release
  | 0x115 => some .mput
  | 0x116 => some .mget
  | 0x117 => some .mzero
  | 0x118 => some .mlget
  | 0x119 => some .mpsw
  | 0x11A => some .lend
  | 0x11B => some .reclaim
  | 0x120 => some .mcfg
  | 0x121 => some .mdrain
  | 0x122 => some .mcall
  | 0x123 => some .claim
  | 0x124 => some .release
  | 0x125 => some .mput
  | 0x126 => some .mget
  | 0x127 => some .mzero
  | 0x128 => some .mlget
  | 0x129 => some .mpsw
  | 0x160 => some .mcfgExt
  | 0x161 => some .mdrainExt
  | 0x162 => some .mcallExt
  | 0x163 => some .claimExt
  | 0x164 => some .releaseExt
  | 0x165 => some .mputExt
  | 0x166 => some .mgetExt
  | 0x167 => some .mzeroExt
  | 0x168 => some .mlgetExt
  | 0x169 => some .mpswExt
  | 0x16A => some .lendExt
  | 0x16B => some .reclaimExt
  | 0x170 => some .mcfgExt
  | 0x171 => some .mdrainExt
  | 0x172 => some .mcallExt
  | 0x173 => some .claimExt
  | 0x174 => some .releaseExt
  | 0x175 => some .mputExt
  | 0x176 => some .mgetExt
  | 0x177 => some .mzeroExt
  | 0x178 => some .mlgetExt
  | 0x179 => some .mpswExt
  | _ => none

/-- The CE and system triggers of class 7 (R169 to R182). -/
def trigCe (d : BitVec 9) : Option SlotOp :=
  match d.toNat with
  | 0x110 => some .cpy
  | 0x111 => some .cpys
  | 0x112 => some .xfer
  | 0x113 => some .catom
  | 0x114 => some .shape
  | 0x115 => some .dct
  | 0x116 => some .cbclr
  | 0x117 => some .wpclr
  | 0x120 => some .signal
  | 0x121 => some .gmark
  | 0x160 => some .cpyExt
  | 0x161 => some .cpysExt
  | 0x162 => some .xferExt
  | 0x163 => some .catomExt
  | 0x164 => some .shapeExt
  | 0x165 => some .dctExt
  | 0x166 => some .cbclrExt
  | 0x167 => some .wpclrExt
  | _ => none

/-- The instruction of an operation, from the word's destination ID and its other fields: RM is ID bits [1:0] (R99),
the engine follows the ID range (R78), and PNZ's predicate is ID bits [3:0] (R118). -/
noncomputable def SlotOp.instr (op : SlotOp) (d : BitVec 9) (w : Slot) : Instr :=
  match op with
  | .br => .br w
  | .bri => .bri w
  | .call => .call w
  | .calli => .calli w
  | .ret => .ret w.gd
  | .loop => .loop w
  | .lexit => .lexit w
  | .mpcset => .mpcset w
  | .ntreq => .ntreq w.gd
  | .bar => .bar w
  | .waitbm => .waitbm w
  | .waitwp => .waitwp w
  | .trap => .trap w
  | .eret => .eret w
  | .timerset => .timerset w
  | .rdsched => .rdsched w
  | .recw => .recw w
  | .lease => .lease w
  | .halt => .halt w.gd
  | .brExt => .brExt w
  | .briExt => .briExt w
  | .callExt => .callExt w
  | .calliExt => .calliExt w
  | .retExt => .retExt w
  | .loopExt => .loopExt w
  | .lexitExt => .lexitExt w
  | .mpcsetExt => .mpcsetExt w
  | .ntreqExt => .ntreqExt w
  | .barExt => .barExt w
  | .waitbmExt => .waitbmExt w
  | .waitwpExt => .waitwpExt w
  | .trapExt => .trapExt w
  | .eretExt => .eretExt w
  | .timersetExt => .timersetExt w
  | .rdschedExt => .rdschedExt w
  | .recwExt => .recwExt w
  | .leaseExt => .leaseExt w
  | .haltExt => .haltExt w
  | .add => .add w
  | .sub => .sub w
  | .addS => .addS w
  | .subS => .subS w
  | .and => .and w
  | .or => .or w
  | .xor => .xor w
  | .andn => .andn w
  | .shl => .shl w
  | .shr => .shr w
  | .sar => .sar w
  | .ror => .ror w
  | .min => .min w
  | .max => .max w
  | .minu => .minu w
  | .maxu => .maxu w
  | .cmpeq => .cmpeq w
  | .cmpne => .cmpne w
  | .cmplt => .cmplt w
  | .cmple => .cmple w
  | .cmpltu => .cmpltu w
  | .cmpleu => .cmpleu w
  | .sel => .sel w
  | .ext => .ext w
  | .exts => .exts w
  | .ins => .ins w
  | .clz => .clz w
  | .popc => .popc w
  | .addc => .addc w
  | .carry => .carry w
  | .subb => .subb w
  | .borrow => .borrow w
  | .mullo => .mullo w
  | .mulhi => .mulhi w
  | .mulhiu => .mulhiu w
  | .addExt => .addExt w
  | .subExt => .subExt w
  | .addSExt => .addSExt w
  | .subSExt => .subSExt w
  | .andExt => .andExt w
  | .orExt => .orExt w
  | .xorExt => .xorExt w
  | .andnExt => .andnExt w
  | .shlExt => .shlExt w
  | .shrExt => .shrExt w
  | .sarExt => .sarExt w
  | .rorExt => .rorExt w
  | .minExt => .minExt w
  | .maxExt => .maxExt w
  | .minuExt => .minuExt w
  | .maxuExt => .maxuExt w
  | .cmpeqExt => .cmpeqExt w
  | .cmpneExt => .cmpneExt w
  | .cmpltExt => .cmpltExt w
  | .cmpleExt => .cmpleExt w
  | .cmpltuExt => .cmpltuExt w
  | .cmpleuExt => .cmpleuExt w
  | .selExt => .selExt w
  | .extExt => .extExt w
  | .extsExt => .extsExt w
  | .insExt => .insExt w
  | .clzExt => .clzExt w
  | .popcExt => .popcExt w
  | .addcExt => .addcExt w
  | .carryExt => .carryExt w
  | .subbExt => .subbExt w
  | .borrowExt => .borrowExt w
  | .mulloExt => .mulloExt w
  | .mulhiExt => .mulhiExt w
  | .mulhiuExt => .mulhiuExt w
  | .aadd => .aadd w
  | .asub => .asub w
  | .aidx => .aidx w
  | .acirc => .acirc w
  | .aand => .aand w
  | .aor => .aor w
  | .ashl => .ashl w
  | .ashr => .ashr w
  | .atop => .atop w
  | .acmpeq => .acmpeq w
  | .acmpltu => .acmpltu w
  | .ajoin => .ajoin w
  | .aaddExt => .aaddExt w
  | .asubExt => .asubExt w
  | .aidxExt => .aidxExt w
  | .acircExt => .acircExt w
  | .aandExt => .aandExt w
  | .aorExt => .aorExt w
  | .ashlExt => .ashlExt w
  | .ashrExt => .ashrExt w
  | .atopExt => .atopExt w
  | .acmpeqExt => .acmpeqExt w
  | .acmpltuExt => .acmpltuExt w
  | .ajoinExt => .ajoinExt w
  | .pnz => .pnz w (d.extractLsb' 0 4)
  | .vfadd => .vfadd w (Rm.ofDst d)
  | .vfsub => .vfsub w (Rm.ofDst d)
  | .vfmul => .vfmul w (Rm.ofDst d)
  | .vfma => .vfma w (Rm.ofDst d)
  | .vfmin => .vfmin w
  | .vfmax => .vfmax w
  | .vfcmpeq => .vfcmpeq w
  | .vfcmplt => .vfcmplt w
  | .vfcmple => .vfcmple w
  | .vfcmpun => .vfcmpun w
  | .vfradd => .vfradd w
  | .vfrmax => .vfrmax w
  | .vfrmin => .vfrmin w
  | .cvt => .cvt w
  | .cvtAmax => .cvtAmax w
  | .vadd => .vadd w
  | .vsub => .vsub w
  | .vaddS => .vaddS w
  | .vsubS => .vsubS w
  | .vadduS => .vadduS w
  | .vsubuS => .vsubuS w
  | .vmul => .vmul w
  | .vmin => .vmin w
  | .vmax => .vmax w
  | .vminu => .vminu w
  | .vmaxu => .vmaxu w
  | .vabs => .vabs w
  | .vshl => .vshl w
  | .vshr => .vshr w
  | .vsar => .vsar w
  | .vand => .vand w
  | .vor => .vor w
  | .vxor => .vxor w
  | .vandn => .vandn w
  | .vcmpeq => .vcmpeq w
  | .vcmpne => .vcmpne w
  | .vcmplt => .vcmplt w
  | .vcmple => .vcmple w
  | .vcmpltu => .vcmpltu w
  | .vcmpleu => .vcmpleu w
  | .vradd => .vradd w
  | .vrmax => .vrmax w
  | .vrmin => .vrmin w
  | .vdot4S => .vdot4S w
  | .vmix => .vmix w
  | .vperm => .vperm w
  | .vbcast => .vbcast w
  | .vrot => .vrot w
  | .vins => .vins w
  | .vext => .vext w
  | .vpack => .vpack w
  | .vpackS => .vpackS w
  | .vunpkl => .vunpkl w
  | .vunpkh => .vunpkh w
  | .vsel => .vsel w
  | .vtag => .vtag w
  | .viota => .viota w
  | .vfaddExt => .vfaddExt w (Rm.ofDst d)
  | .vfsubExt => .vfsubExt w (Rm.ofDst d)
  | .vfmulExt => .vfmulExt w (Rm.ofDst d)
  | .vfmaExt => .vfmaExt w (Rm.ofDst d)
  | .vfminExt => .vfminExt w
  | .vfmaxExt => .vfmaxExt w
  | .vfcmpeqExt => .vfcmpeqExt w
  | .vfcmpltExt => .vfcmpltExt w
  | .vfcmpleExt => .vfcmpleExt w
  | .vfcmpunExt => .vfcmpunExt w
  | .vfraddExt => .vfraddExt w
  | .vfrmaxExt => .vfrmaxExt w
  | .vfrminExt => .vfrminExt w
  | .cvtExt => .cvtExt w
  | .cvtAmaxExt => .cvtAmaxExt w
  | .vaddExt => .vaddExt w
  | .vsubExt => .vsubExt w
  | .vaddSExt => .vaddSExt w
  | .vsubSExt => .vsubSExt w
  | .vadduSExt => .vadduSExt w
  | .vsubuSExt => .vsubuSExt w
  | .vmulExt => .vmulExt w
  | .vminExt => .vminExt w
  | .vmaxExt => .vmaxExt w
  | .vminuExt => .vminuExt w
  | .vmaxuExt => .vmaxuExt w
  | .vabsExt => .vabsExt w
  | .vshlExt => .vshlExt w
  | .vshrExt => .vshrExt w
  | .vsarExt => .vsarExt w
  | .vandExt => .vandExt w
  | .vorExt => .vorExt w
  | .vxorExt => .vxorExt w
  | .vandnExt => .vandnExt w
  | .vcmpeqExt => .vcmpeqExt w
  | .vcmpneExt => .vcmpneExt w
  | .vcmpltExt => .vcmpltExt w
  | .vcmpleExt => .vcmpleExt w
  | .vcmpltuExt => .vcmpltuExt w
  | .vcmpleuExt => .vcmpleuExt w
  | .vraddExt => .vraddExt w
  | .vrmaxExt => .vrmaxExt w
  | .vrminExt => .vrminExt w
  | .vdot4SExt => .vdot4SExt w
  | .vmixExt => .vmixExt w
  | .vpermExt => .vpermExt w
  | .vbcastExt => .vbcastExt w
  | .vrotExt => .vrotExt w
  | .vinsExt => .vinsExt w
  | .vextExt => .vextExt w
  | .vpackExt => .vpackExt w
  | .vpackSExt => .vpackSExt w
  | .vunpklExt => .vunpklExt w
  | .vunpkhExt => .vunpkhExt w
  | .vselExt => .vselExt w
  | .vtagExt => .vtagExt w
  | .viotaExt => .viotaExt w
  | .rcp => .rcp w
  | .rsq => .rsq w
  | .sqrt => .sqrt w
  | .exp2 => .exp2 w
  | .log2 => .log2 w
  | .tanh => .tanh w
  | .sigm => .sigm w
  | .erf => .erf w
  | .ldB => .ldB w
  | .ldBu => .ldBu w
  | .ldH => .ldH w
  | .ldHu => .ldHu w
  | .ldW => .ldW w
  | .vld => .vld w
  | .vlds => .vlds w
  | .stB => .stB w
  | .stH => .stH w
  | .stW => .stW w
  | .stD => .stD w
  | .vst => .vst w
  | .vstm => .vstm w
  | .atadd => .atadd w
  | .atmin => .atmin w
  | .atmax => .atmax w
  | .atminu => .atminu w
  | .atmaxu => .atmaxu w
  | .atand => .atand w
  | .ator => .ator w
  | .atswp => .atswp w
  | .atcas => .atcas w
  | .fill => .fill w
  | .ldsc => .ldsc w
  | .probe => .probe w
  | .wpset => .wpset w
  | .evac => .evac w
  | .ldBExt => .ldBExt w
  | .ldBuExt => .ldBuExt w
  | .ldHExt => .ldHExt w
  | .ldHuExt => .ldHuExt w
  | .ldWExt => .ldWExt w
  | .vldExt => .vldExt w
  | .vldsExt => .vldsExt w
  | .stBExt => .stBExt w
  | .stHExt => .stHExt w
  | .stWExt => .stWExt w
  | .stDExt => .stDExt w
  | .vstExt => .vstExt w
  | .vstmExt => .vstmExt w
  | .ataddExt => .ataddExt w
  | .atminExt => .atminExt w
  | .atmaxExt => .atmaxExt w
  | .atminuExt => .atminuExt w
  | .atmaxuExt => .atmaxuExt w
  | .atandExt => .atandExt w
  | .atorExt => .atorExt w
  | .atswpExt => .atswpExt w
  | .atcasExt => .atcasExt w
  | .fillExt => .fillExt w
  | .ldscExt => .ldscExt w
  | .probeExt => .probeExt w
  | .wpsetExt => .wpsetExt w
  | .evacExt => .evacExt w
  | .cpy => .cpy w
  | .cpys => .cpys w
  | .xfer => .xfer w
  | .catom => .catom w
  | .shape => .shape w
  | .dct => .dct w
  | .cbclr => .cbclr w
  | .wpclr => .wpclr w
  | .cpyExt => .cpyExt w
  | .cpysExt => .cpysExt w
  | .xferExt => .xferExt w
  | .catomExt => .catomExt w
  | .shapeExt => .shapeExt w
  | .dctExt => .dctExt w
  | .cbclrExt => .cbclrExt w
  | .wpclrExt => .wpclrExt w
  | .signal => .signal w
  | .gmark => .gmark w
  | .mcfg => .mcfg w (engOfDst d)
  | .mdrain => .mdrain w.gd (engOfDst d)
  | .mcall => .mcall w (engOfDst d)
  | .claim => .claim w (engOfDst d)
  | .release => .release w (engOfDst d)
  | .mput => .mput w (engOfDst d)
  | .mget => .mget w (engOfDst d)
  | .mzero => .mzero w (engOfDst d)
  | .mlget => .mlget w (engOfDst d)
  | .mpsw => .mpsw w (engOfDst d)
  | .lend => .lend w
  | .reclaim => .reclaim w
  | .mcfgExt => .mcfgExt w (engOfDst d)
  | .mdrainExt => .mdrainExt w (engOfDst d)
  | .mcallExt => .mcallExt w (engOfDst d)
  | .claimExt => .claimExt w (engOfDst d)
  | .releaseExt => .releaseExt w (engOfDst d)
  | .mputExt => .mputExt w (engOfDst d)
  | .mgetExt => .mgetExt w (engOfDst d)
  | .mzeroExt => .mzeroExt w (engOfDst d)
  | .mlgetExt => .mlgetExt w (engOfDst d)
  | .mpswExt => .mpswExt w (engOfDst d)
  | .lendExt => .lendExt w
  | .reclaimExt => .reclaimExt w

/-- The trigger a destination ID names in a slot class (R78); class 1 has neither CTL nor predicate operations (R73). -/
def trigOf (c : Cls) (d : BitVec 9) : Option SlotOp :=
  match c with
  | .c0 => (trigCtl d).or ((trigSa d).or (trigPred d))
  | .c1 => trigSa d
  | .c2 => trigVec d
  | .c4 => trigLs d
  | .c6 => trigMe d
  | .c7 => trigCe d

/-- Whether an ID is a register a move may name as destination in some class, or FLG (R76): 0x000-0x08F and 0x09D. -/
def isRegDst (d : BitVec 9) : Bool := d.toNat < 0x90 || d == 0x9D

/-- Whether an ID is an operand port or an mp register of the class (R78). -/
def isPort (c : Cls) (d : BitVec 9) : Bool :=
  match c with
  | .c0 => 0x100 ≤ d.toNat && d.toNat ≤ 0x106
  | .c1 => 0x100 ≤ d.toNat && d.toNat ≤ 0x103
  | .c2 => 0x100 ≤ d.toNat && d.toNat ≤ 0x102
  | .c4 => 0x100 ≤ d.toNat && d.toNat ≤ 0x102
  | .c6 => (0x100 ≤ d.toNat && d.toNat ≤ 0x103) || (0x1B0 ≤ d.toNat && d.toNat ≤ 0x1BF)
  | .c7 => 0x100 ≤ d.toNat && d.toNat ≤ 0x102

/-- What a slot word's destination ID names in a slot of class c: a trigger, or a register or port a move writes; none
where the ID is unassigned for the class (R78, R85). -/
def slotTarget (c : Cls) (d : BitVec 9) : Option (Option SlotOp) :=
  match trigOf c d with
  | some op => some (some op)
  | none => if isRegDst d || isPort c d then some none else none

/-- The instruction of a slot word in a slot of class c; none where bit 0 is set or the destination ID is unassigned for
the class (R69, R78, R85). Whether the slot may read and write what it names is checked with the bundle (R85, R86). -/
noncomputable def decodeSlot (c : Cls) (w : Word24) : Option Instr :=
  if w.getLsbD 0 then none
  else
    match slotTarget c (slotDst w) with
    | some (some op) => some (op.instr (slotDst w) (Slot.ofWord w))
    | some none => some (.move (Slot.ofWord w) (slotDst w))
    | none => none

/-- The micro-operations of an engine, with their fields (R206). -/
inductive MicroOp where
  | mend
  | msela (m : BitVec 3)
  | mselb (m : BitVec 3)
  | mldx (d m : BitVec 3) (f : BitVec 2)
  | msetx (d : BitVec 3) (imm : BitVec 16)
  | maddx (d : BitVec 3) (imm : BitVec 16)
  | mloop (d : BitVec 3) (e : BitVec 9)
  | mnext
  | mblk (f : BitVec 3)
  | macc (q : BitVec 2) (d : BitVec 3) (z : Bool)
  | mmac (q : BitVec 2) (di dj dk dl : BitVec 3)
  | mspr (on : Bool)
  | mbz (d : BitVec 3) (t : BitVec 9)
  | mjmp (t : BitVec 9)
  | mwait (n : BitVec 16)
  | mnop
  deriving DecidableEq, Repr

/-- The instruction of a micro-operation. -/
noncomputable def MicroOp.instr (m : MicroOp) : Instr :=
  match m with
  | .mend => .mend
  | .msela m => .msela m
  | .mselb m => .mselb m
  | .mldx d m f => .mldx d m f
  | .msetx d i => .msetx d i
  | .maddx d i => .maddx d i
  | .mloop d e => .mloop d e
  | .mnext => .mnext
  | .mblk f => .mblk f
  | .macc q d z => .macc q d z
  | .mmac q di dj dk dl => .mmac q di dj dk dl
  | .mspr on => .mspr on
  | .mbz d t => .mbz d t
  | .mjmp t => .mjmp t
  | .mwait n => .mwait n
  | .mnop => .mnop

/-- The micro-operation of a 32-bit store word (R206); none for a word with a fixed bit wrong. -/
def decodeMicroOp (w : W32) : Option MicroOp :=
  match (w.extractLsb' 28 4).toNat with
  | 0 => if w == 0 then some .mend else none
  | 1 => if w.extractLsb' 3 25 == 0 then some (.msela (w.extractLsb' 0 3)) else none
  | 2 => if w.extractLsb' 3 25 == 0 then some (.mselb (w.extractLsb' 0 3)) else none
  | 3 => if w.extractLsb' 8 20 == 0 then some (.mldx (w.extractLsb' 0 3) (w.extractLsb' 3 3) (w.extractLsb' 6 2)) else none
  | 4 => if w.extractLsb' 3 9 == 0 then some (.msetx (w.extractLsb' 0 3) (w.extractLsb' 12 16)) else none
  | 5 => if w.extractLsb' 3 9 == 0 then some (.maddx (w.extractLsb' 0 3) (w.extractLsb' 12 16)) else none
  | 6 => if w.extractLsb' 25 3 == 0 && w.extractLsb' 3 13 == 0 then
           some (.mloop (w.extractLsb' 0 3) (w.extractLsb' 16 9)) else none
  | 7 => if w.extractLsb' 0 28 == 0 then some .mnext else none
  | 8 => if w.extractLsb' 3 25 == 0 then some (.mblk (w.extractLsb' 0 3)) else none
  | 9 => if w.extractLsb' 6 22 == 0 then
           some (.macc (w.extractLsb' 0 2) (w.extractLsb' 2 3) (w.getLsbD 5)) else none
  | 10 => if w.extractLsb' 14 14 == 0 then
            some (.mmac (w.extractLsb' 0 2) (w.extractLsb' 2 3) (w.extractLsb' 5 3) (w.extractLsb' 8 3)
              (w.extractLsb' 11 3)) else none
  | 11 => if w.extractLsb' 1 27 == 0 then some (.mspr (w.getLsbD 0)) else none
  | 12 => if w.extractLsb' 25 3 == 0 && w.extractLsb' 3 13 == 0 then
            some (.mbz (w.extractLsb' 0 3) (w.extractLsb' 16 9)) else none
  | 13 => if w.extractLsb' 25 3 == 0 && w.extractLsb' 0 16 == 0 then some (.mjmp (w.extractLsb' 16 9)) else none
  | 14 => if w.extractLsb' 16 12 == 0 then some (.mwait (w.extractLsb' 0 16)) else none
  | _ => if w.extractLsb' 0 28 == 0 then some .mnop else none

/-- The instruction of a store word (R206). -/
noncomputable def decodeMicro (w : W32) : Option Instr := (decodeMicroOp w).map MicroOp.instr

/-- The fields of a header word (R68). -/
def decodeHeader (w : Word24) : Header :=
  { rsv := w.extractLsb' 18 6, imm := w.extractLsb' 16 2, ops := w.extractLsb' 13 3, c := w.getLsbD 12,
    e := w.getLsbD 11, s := w.getLsbD 10, w := w.getLsbD 9, f := w.getLsbD 8, pm := w.extractLsb' 0 8 }

/-- The header word with these fields (R68). -/
def Header.toWord (h : Header) : Word24 :=
  h.rsv ++ (h.imm ++ (h.ops ++ (BitVec.ofBool h.c ++ (BitVec.ofBool h.e ++ (BitVec.ofBool h.s ++
    (BitVec.ofBool h.w ++ (BitVec.ofBool h.f ++ h.pm)))))))

/-- The set bits of PM, in increasing slot number (R68). -/
def Header.slots (h : Header) : List Nat := (List.range 8).filter (fun j => h.pm.getLsbD j)

/-- The bundle's length in words (R68). -/
def Header.len (h : Header) : Nat := 1 + h.slots.length + h.imm.toNat

/-- Word i of a packet (R63). -/
def Packet.word (p : Packet) (i : Nat) : Word24 := p.extractLsb' (16 + 24 * i) 24
/-- START[i] of a packet (R63). -/
def Packet.start (p : Packet) (i : Nat) : Bool := decide (i < 10) && p.getLsbD i

/-- Whether the words from i on, with at most n bundles, follow R64: lengths and START agree, the rest is padding. -/
def Packet.wfFrom (p : Packet) : Nat → Nat → Bool
  | 0, _ => false
  | n + 1, i =>
    let l := (decodeHeader (p.word i)).len
    decide (i + l ≤ 10) && ((List.range l).all fun j => j == 0 || !p.start (i + j)) &&
      (if i + l == 10 then true
       else if p.start (i + l) then p.wfFrom n (i + l)
       else (List.range (10 - (i + l))).all fun j => !p.start (i + l + j))

/-- A well-formed packet (R64), its reserved tag bits aside (R85). -/
def Packet.wf (p : Packet) : Bool := p.start 0 && p.wfFrom 10 0

/-- The packet with these START bits and words, reserved bits 0 (R63). -/
def Packet.make (start : BitVec 10) (ws : List Word24) : Packet :=
  ((List.range 10).foldl (fun (p : Packet) i =>
    p ||| ((ws.getD i 0).zeroExtend 256 <<< (16 + 24 * i))) (start.zeroExtend 256))

/-- Class, fields and destination ID of a slot word's instruction: the inverse of the trigger maps. A shared trigger
(SA, AU) is written with class 0, a register move with class 0, an mp move with class 6. -/
def slotParts (i : Instr) : Option (Cls × Slot × BitVec 9) :=
  match i with
  | .move w d => some (if 0x1B0 ≤ d.toNat then .c6 else .c0, w, d)
  | .br w => some (.c0, w, 0x110)
  | .bri w => some (.c0, w, 0x111)
  | .call w => some (.c0, w, 0x112)
  | .calli w => some (.c0, w, 0x113)
  | .ret w => some (.c0, ⟨w, 0x1E0⟩, 0x114)
  | .loop w => some (.c0, w, 0x115)
  | .lexit w => some (.c0, w, 0x116)
  | .mpcset w => some (.c0, w, 0x117)
  | .ntreq w => some (.c0, ⟨w, 0x1E0⟩, 0x118)
  | .bar w => some (.c0, w, 0x119)
  | .waitbm w => some (.c0, w, 0x11A)
  | .waitwp w => some (.c0, w, 0x11B)
  | .trap w => some (.c0, w, 0x11C)
  | .eret w => some (.c0, w, 0x11D)
  | .timerset w => some (.c0, w, 0x11E)
  | .rdsched w => some (.c0, w, 0x11F)
  | .recw w => some (.c0, w, 0x120)
  | .lease w => some (.c0, w, 0x121)
  | .halt w => some (.c0, ⟨w, 0x1E0⟩, 0x122)
  | .brExt w => some (.c0, w, 0x160)
  | .briExt w => some (.c0, w, 0x161)
  | .callExt w => some (.c0, w, 0x162)
  | .calliExt w => some (.c0, w, 0x163)
  | .retExt w => some (.c0, w, 0x164)
  | .loopExt w => some (.c0, w, 0x165)
  | .lexitExt w => some (.c0, w, 0x166)
  | .mpcsetExt w => some (.c0, w, 0x167)
  | .ntreqExt w => some (.c0, w, 0x168)
  | .barExt w => some (.c0, w, 0x169)
  | .waitbmExt w => some (.c0, w, 0x16A)
  | .waitwpExt w => some (.c0, w, 0x16B)
  | .trapExt w => some (.c0, w, 0x16C)
  | .eretExt w => some (.c0, w, 0x16D)
  | .timersetExt w => some (.c0, w, 0x16E)
  | .rdschedExt w => some (.c0, w, 0x16F)
  | .recwExt w => some (.c0, w, 0x170)
  | .leaseExt w => some (.c0, w, 0x171)
  | .haltExt w => some (.c0, w, 0x172)
  | .add w => some (.c0, w, 0x128)
  | .sub w => some (.c0, w, 0x129)
  | .addS w => some (.c0, w, 0x12A)
  | .subS w => some (.c0, w, 0x12B)
  | .and w => some (.c0, w, 0x12C)
  | .or w => some (.c0, w, 0x12D)
  | .xor w => some (.c0, w, 0x12E)
  | .andn w => some (.c0, w, 0x12F)
  | .shl w => some (.c0, w, 0x130)
  | .shr w => some (.c0, w, 0x131)
  | .sar w => some (.c0, w, 0x132)
  | .ror w => some (.c0, w, 0x133)
  | .min w => some (.c0, w, 0x134)
  | .max w => some (.c0, w, 0x135)
  | .minu w => some (.c0, w, 0x136)
  | .maxu w => some (.c0, w, 0x137)
  | .cmpeq w => some (.c0, w, 0x138)
  | .cmpne w => some (.c0, w, 0x139)
  | .cmplt w => some (.c0, w, 0x13A)
  | .cmple w => some (.c0, w, 0x13B)
  | .cmpltu w => some (.c0, w, 0x13C)
  | .cmpleu w => some (.c0, w, 0x13D)
  | .sel w => some (.c0, w, 0x13E)
  | .ext w => some (.c0, w, 0x13F)
  | .exts w => some (.c0, w, 0x140)
  | .ins w => some (.c0, w, 0x141)
  | .clz w => some (.c0, w, 0x142)
  | .popc w => some (.c0, w, 0x143)
  | .addc w => some (.c0, w, 0x144)
  | .carry w => some (.c0, w, 0x145)
  | .subb w => some (.c0, w, 0x146)
  | .borrow w => some (.c0, w, 0x147)
  | .mullo w => some (.c0, w, 0x148)
  | .mulhi w => some (.c0, w, 0x149)
  | .mulhiu w => some (.c0, w, 0x14A)
  | .addExt w => some (.c0, w, 0x178)
  | .subExt w => some (.c0, w, 0x179)
  | .addSExt w => some (.c0, w, 0x17A)
  | .subSExt w => some (.c0, w, 0x17B)
  | .andExt w => some (.c0, w, 0x17C)
  | .orExt w => some (.c0, w, 0x17D)
  | .xorExt w => some (.c0, w, 0x17E)
  | .andnExt w => some (.c0, w, 0x17F)
  | .shlExt w => some (.c0, w, 0x180)
  | .shrExt w => some (.c0, w, 0x181)
  | .sarExt w => some (.c0, w, 0x182)
  | .rorExt w => some (.c0, w, 0x183)
  | .minExt w => some (.c0, w, 0x184)
  | .maxExt w => some (.c0, w, 0x185)
  | .minuExt w => some (.c0, w, 0x186)
  | .maxuExt w => some (.c0, w, 0x187)
  | .cmpeqExt w => some (.c0, w, 0x188)
  | .cmpneExt w => some (.c0, w, 0x189)
  | .cmpltExt w => some (.c0, w, 0x18A)
  | .cmpleExt w => some (.c0, w, 0x18B)
  | .cmpltuExt w => some (.c0, w, 0x18C)
  | .cmpleuExt w => some (.c0, w, 0x18D)
  | .selExt w => some (.c0, w, 0x18E)
  | .extExt w => some (.c0, w, 0x18F)
  | .extsExt w => some (.c0, w, 0x190)
  | .insExt w => some (.c0, w, 0x191)
  | .clzExt w => some (.c0, w, 0x192)
  | .popcExt w => some (.c0, w, 0x193)
  | .addcExt w => some (.c0, w, 0x194)
  | .carryExt w => some (.c0, w, 0x195)
  | .subbExt w => some (.c0, w, 0x196)
  | .borrowExt w => some (.c0, w, 0x197)
  | .mulloExt w => some (.c0, w, 0x198)
  | .mulhiExt w => some (.c0, w, 0x199)
  | .mulhiuExt w => some (.c0, w, 0x19A)
  | .aadd w => some (.c0, w, 0x150)
  | .asub w => some (.c0, w, 0x151)
  | .aidx w => some (.c0, w, 0x152)
  | .acirc w => some (.c0, w, 0x153)
  | .aand w => some (.c0, w, 0x154)
  | .aor w => some (.c0, w, 0x155)
  | .ashl w => some (.c0, w, 0x156)
  | .ashr w => some (.c0, w, 0x157)
  | .atop w => some (.c0, w, 0x158)
  | .acmpeq w => some (.c0, w, 0x159)
  | .acmpltu w => some (.c0, w, 0x15A)
  | .ajoin w => some (.c0, w, 0x15B)
  | .aaddExt w => some (.c0, w, 0x1A0)
  | .asubExt w => some (.c0, w, 0x1A1)
  | .aidxExt w => some (.c0, w, 0x1A2)
  | .acircExt w => some (.c0, w, 0x1A3)
  | .aandExt w => some (.c0, w, 0x1A4)
  | .aorExt w => some (.c0, w, 0x1A5)
  | .ashlExt w => some (.c0, w, 0x1A6)
  | .ashrExt w => some (.c0, w, 0x1A7)
  | .atopExt w => some (.c0, w, 0x1A8)
  | .acmpeqExt w => some (.c0, w, 0x1A9)
  | .acmpltuExt w => some (.c0, w, 0x1AA)
  | .ajoinExt w => some (.c0, w, 0x1AB)
  | .pnz w k => some (.c0, w, 0x1B0 + k.zeroExtend 9)
  | .vfadd w rm => some (.c2, w, 0x110 + rm.bits)
  | .vfsub w rm => some (.c2, w, 0x114 + rm.bits)
  | .vfmul w rm => some (.c2, w, 0x118 + rm.bits)
  | .vfma w rm => some (.c2, w, 0x11C + rm.bits)
  | .vfmin w => some (.c2, w, 0x120)
  | .vfmax w => some (.c2, w, 0x121)
  | .vfcmpeq w => some (.c2, w, 0x122)
  | .vfcmplt w => some (.c2, w, 0x123)
  | .vfcmple w => some (.c2, w, 0x124)
  | .vfcmpun w => some (.c2, w, 0x125)
  | .vfradd w => some (.c2, w, 0x126)
  | .vfrmax w => some (.c2, w, 0x127)
  | .vfrmin w => some (.c2, w, 0x128)
  | .cvt w => some (.c2, w, 0x129)
  | .cvtAmax w => some (.c2, w, 0x12A)
  | .vadd w => some (.c2, w, 0x130)
  | .vsub w => some (.c2, w, 0x131)
  | .vaddS w => some (.c2, w, 0x132)
  | .vsubS w => some (.c2, w, 0x133)
  | .vadduS w => some (.c2, w, 0x134)
  | .vsubuS w => some (.c2, w, 0x135)
  | .vmul w => some (.c2, w, 0x136)
  | .vmin w => some (.c2, w, 0x137)
  | .vmax w => some (.c2, w, 0x138)
  | .vminu w => some (.c2, w, 0x139)
  | .vmaxu w => some (.c2, w, 0x13A)
  | .vabs w => some (.c2, w, 0x13B)
  | .vshl w => some (.c2, w, 0x13C)
  | .vshr w => some (.c2, w, 0x13D)
  | .vsar w => some (.c2, w, 0x13E)
  | .vand w => some (.c2, w, 0x13F)
  | .vor w => some (.c2, w, 0x140)
  | .vxor w => some (.c2, w, 0x141)
  | .vandn w => some (.c2, w, 0x142)
  | .vcmpeq w => some (.c2, w, 0x143)
  | .vcmpne w => some (.c2, w, 0x144)
  | .vcmplt w => some (.c2, w, 0x145)
  | .vcmple w => some (.c2, w, 0x146)
  | .vcmpltu w => some (.c2, w, 0x147)
  | .vcmpleu w => some (.c2, w, 0x148)
  | .vradd w => some (.c2, w, 0x149)
  | .vrmax w => some (.c2, w, 0x14A)
  | .vrmin w => some (.c2, w, 0x14B)
  | .vdot4S w => some (.c2, w, 0x14C)
  | .vmix w => some (.c2, w, 0x14D)
  | .vperm w => some (.c2, w, 0x150)
  | .vbcast w => some (.c2, w, 0x151)
  | .vrot w => some (.c2, w, 0x152)
  | .vins w => some (.c2, w, 0x153)
  | .vext w => some (.c2, w, 0x154)
  | .vpack w => some (.c2, w, 0x155)
  | .vpackS w => some (.c2, w, 0x156)
  | .vunpkl w => some (.c2, w, 0x157)
  | .vunpkh w => some (.c2, w, 0x158)
  | .vsel w => some (.c2, w, 0x159)
  | .vtag w => some (.c2, w, 0x15A)
  | .viota w => some (.c2, w, 0x15B)
  | .vfaddExt w rm => some (.c2, w, 0x160 + rm.bits)
  | .vfsubExt w rm => some (.c2, w, 0x164 + rm.bits)
  | .vfmulExt w rm => some (.c2, w, 0x168 + rm.bits)
  | .vfmaExt w rm => some (.c2, w, 0x16C + rm.bits)
  | .vfminExt w => some (.c2, w, 0x170)
  | .vfmaxExt w => some (.c2, w, 0x171)
  | .vfcmpeqExt w => some (.c2, w, 0x172)
  | .vfcmpltExt w => some (.c2, w, 0x173)
  | .vfcmpleExt w => some (.c2, w, 0x174)
  | .vfcmpunExt w => some (.c2, w, 0x175)
  | .vfraddExt w => some (.c2, w, 0x176)
  | .vfrmaxExt w => some (.c2, w, 0x177)
  | .vfrminExt w => some (.c2, w, 0x178)
  | .cvtExt w => some (.c2, w, 0x179)
  | .cvtAmaxExt w => some (.c2, w, 0x17A)
  | .vaddExt w => some (.c2, w, 0x180)
  | .vsubExt w => some (.c2, w, 0x181)
  | .vaddSExt w => some (.c2, w, 0x182)
  | .vsubSExt w => some (.c2, w, 0x183)
  | .vadduSExt w => some (.c2, w, 0x184)
  | .vsubuSExt w => some (.c2, w, 0x185)
  | .vmulExt w => some (.c2, w, 0x186)
  | .vminExt w => some (.c2, w, 0x187)
  | .vmaxExt w => some (.c2, w, 0x188)
  | .vminuExt w => some (.c2, w, 0x189)
  | .vmaxuExt w => some (.c2, w, 0x18A)
  | .vabsExt w => some (.c2, w, 0x18B)
  | .vshlExt w => some (.c2, w, 0x18C)
  | .vshrExt w => some (.c2, w, 0x18D)
  | .vsarExt w => some (.c2, w, 0x18E)
  | .vandExt w => some (.c2, w, 0x18F)
  | .vorExt w => some (.c2, w, 0x190)
  | .vxorExt w => some (.c2, w, 0x191)
  | .vandnExt w => some (.c2, w, 0x192)
  | .vcmpeqExt w => some (.c2, w, 0x193)
  | .vcmpneExt w => some (.c2, w, 0x194)
  | .vcmpltExt w => some (.c2, w, 0x195)
  | .vcmpleExt w => some (.c2, w, 0x196)
  | .vcmpltuExt w => some (.c2, w, 0x197)
  | .vcmpleuExt w => some (.c2, w, 0x198)
  | .vraddExt w => some (.c2, w, 0x199)
  | .vrmaxExt w => some (.c2, w, 0x19A)
  | .vrminExt w => some (.c2, w, 0x19B)
  | .vdot4SExt w => some (.c2, w, 0x19C)
  | .vmixExt w => some (.c2, w, 0x19D)
  | .vpermExt w => some (.c2, w, 0x1A0)
  | .vbcastExt w => some (.c2, w, 0x1A1)
  | .vrotExt w => some (.c2, w, 0x1A2)
  | .vinsExt w => some (.c2, w, 0x1A3)
  | .vextExt w => some (.c2, w, 0x1A4)
  | .vpackExt w => some (.c2, w, 0x1A5)
  | .vpackSExt w => some (.c2, w, 0x1A6)
  | .vunpklExt w => some (.c2, w, 0x1A7)
  | .vunpkhExt w => some (.c2, w, 0x1A8)
  | .vselExt w => some (.c2, w, 0x1A9)
  | .vtagExt w => some (.c2, w, 0x1AA)
  | .viotaExt w => some (.c2, w, 0x1AB)
  | .rcp w => some (.c2, w, 0x1B0)
  | .rsq w => some (.c2, w, 0x1B1)
  | .sqrt w => some (.c2, w, 0x1B2)
  | .exp2 w => some (.c2, w, 0x1B3)
  | .log2 w => some (.c2, w, 0x1B4)
  | .tanh w => some (.c2, w, 0x1B5)
  | .sigm w => some (.c2, w, 0x1B6)
  | .erf w => some (.c2, w, 0x1B7)
  | .ldB w => some (.c4, w, 0x110)
  | .ldBu w => some (.c4, w, 0x111)
  | .ldH w => some (.c4, w, 0x112)
  | .ldHu w => some (.c4, w, 0x113)
  | .ldW w => some (.c4, w, 0x114)
  | .vld w => some (.c4, w, 0x115)
  | .vlds w => some (.c4, w, 0x116)
  | .stB w => some (.c4, w, 0x117)
  | .stH w => some (.c4, w, 0x118)
  | .stW w => some (.c4, w, 0x119)
  | .stD w => some (.c4, w, 0x11A)
  | .vst w => some (.c4, w, 0x11B)
  | .vstm w => some (.c4, w, 0x11C)
  | .atadd w => some (.c4, w, 0x11D)
  | .atmin w => some (.c4, w, 0x11E)
  | .atmax w => some (.c4, w, 0x11F)
  | .atminu w => some (.c4, w, 0x120)
  | .atmaxu w => some (.c4, w, 0x121)
  | .atand w => some (.c4, w, 0x122)
  | .ator w => some (.c4, w, 0x123)
  | .atswp w => some (.c4, w, 0x124)
  | .atcas w => some (.c4, w, 0x125)
  | .fill w => some (.c4, w, 0x126)
  | .ldsc w => some (.c4, w, 0x127)
  | .probe w => some (.c4, w, 0x128)
  | .wpset w => some (.c4, w, 0x129)
  | .evac w => some (.c4, w, 0x12A)
  | .ldBExt w => some (.c4, w, 0x160)
  | .ldBuExt w => some (.c4, w, 0x161)
  | .ldHExt w => some (.c4, w, 0x162)
  | .ldHuExt w => some (.c4, w, 0x163)
  | .ldWExt w => some (.c4, w, 0x164)
  | .vldExt w => some (.c4, w, 0x165)
  | .vldsExt w => some (.c4, w, 0x166)
  | .stBExt w => some (.c4, w, 0x167)
  | .stHExt w => some (.c4, w, 0x168)
  | .stWExt w => some (.c4, w, 0x169)
  | .stDExt w => some (.c4, w, 0x16A)
  | .vstExt w => some (.c4, w, 0x16B)
  | .vstmExt w => some (.c4, w, 0x16C)
  | .ataddExt w => some (.c4, w, 0x16D)
  | .atminExt w => some (.c4, w, 0x16E)
  | .atmaxExt w => some (.c4, w, 0x16F)
  | .atminuExt w => some (.c4, w, 0x170)
  | .atmaxuExt w => some (.c4, w, 0x171)
  | .atandExt w => some (.c4, w, 0x172)
  | .atorExt w => some (.c4, w, 0x173)
  | .atswpExt w => some (.c4, w, 0x174)
  | .atcasExt w => some (.c4, w, 0x175)
  | .fillExt w => some (.c4, w, 0x176)
  | .ldscExt w => some (.c4, w, 0x177)
  | .probeExt w => some (.c4, w, 0x178)
  | .wpsetExt w => some (.c4, w, 0x179)
  | .evacExt w => some (.c4, w, 0x17A)
  | .cpy w => some (.c7, w, 0x110)
  | .cpys w => some (.c7, w, 0x111)
  | .xfer w => some (.c7, w, 0x112)
  | .catom w => some (.c7, w, 0x113)
  | .shape w => some (.c7, w, 0x114)
  | .dct w => some (.c7, w, 0x115)
  | .cbclr w => some (.c7, w, 0x116)
  | .wpclr w => some (.c7, w, 0x117)
  | .cpyExt w => some (.c7, w, 0x160)
  | .cpysExt w => some (.c7, w, 0x161)
  | .xferExt w => some (.c7, w, 0x162)
  | .catomExt w => some (.c7, w, 0x163)
  | .shapeExt w => some (.c7, w, 0x164)
  | .dctExt w => some (.c7, w, 0x165)
  | .cbclrExt w => some (.c7, w, 0x166)
  | .wpclrExt w => some (.c7, w, 0x167)
  | .signal w => some (.c7, w, 0x120)
  | .gmark w => some (.c7, w, 0x121)
  | .mcfg w e => some (.c6, w, if e then 0x120 else 0x110)
  | .mdrain w e => some (.c6, ⟨w, 0x1E0⟩, if e then 0x121 else 0x111)
  | .mcall w e => some (.c6, w, if e then 0x122 else 0x112)
  | .claim w e => some (.c6, w, if e then 0x123 else 0x113)
  | .release w e => some (.c6, w, if e then 0x124 else 0x114)
  | .mput w e => some (.c6, w, if e then 0x125 else 0x115)
  | .mget w e => some (.c6, w, if e then 0x126 else 0x116)
  | .mzero w e => some (.c6, w, if e then 0x127 else 0x117)
  | .mlget w e => some (.c6, w, if e then 0x128 else 0x118)
  | .mpsw w e => some (.c6, w, if e then 0x129 else 0x119)
  | .lend w => some (.c6, w, 0x11A)
  | .reclaim w => some (.c6, w, 0x11B)
  | .mcfgExt w e => some (.c6, w, if e then 0x170 else 0x160)
  | .mdrainExt w e => some (.c6, w, if e then 0x171 else 0x161)
  | .mcallExt w e => some (.c6, w, if e then 0x172 else 0x162)
  | .claimExt w e => some (.c6, w, if e then 0x173 else 0x163)
  | .releaseExt w e => some (.c6, w, if e then 0x174 else 0x164)
  | .mputExt w e => some (.c6, w, if e then 0x175 else 0x165)
  | .mgetExt w e => some (.c6, w, if e then 0x176 else 0x166)
  | .mzeroExt w e => some (.c6, w, if e then 0x177 else 0x167)
  | .mlgetExt w e => some (.c6, w, if e then 0x178 else 0x168)
  | .mpswExt w e => some (.c6, w, if e then 0x179 else 0x169)
  | .lendExt w => some (.c6, w, 0x16A)
  | .reclaimExt w => some (.c6, w, 0x16B)
  | _ => none

/-- The slot word of an instruction, with the class that decodes it (R69, R78). -/
def encodeSlot (i : Instr) : Option (Cls × Word24) :=
  (slotParts i).map fun p => (p.1, p.2.1.toWord p.2.2)

/-- The 32-bit word of a micro-operation (R206). -/
def encodeMicro (i : Instr) : Option W32 :=
  match i with
  | .mend => some 0
  | .msela m => some (1#4 ++ (0#25 ++ m))
  | .mselb m => some (2#4 ++ (0#25 ++ m))
  | .mldx d m f => some (3#4 ++ (0#20 ++ (f ++ (m ++ d))))
  | .msetx d imm => some (4#4 ++ (imm ++ (0#9 ++ d)))
  | .maddx d imm => some (5#4 ++ (imm ++ (0#9 ++ d)))
  | .mloop d e => some (6#4 ++ (0#3 ++ (e ++ (0#13 ++ d))))
  | .mnext => some (7#4 ++ 0#28)
  | .mblk f => some (8#4 ++ (0#25 ++ f))
  | .macc q d z => some (9#4 ++ (0#22 ++ (BitVec.ofBool z ++ (d ++ q))))
  | .mmac q di dj dk dl => some (10#4 ++ (0#14 ++ (dl ++ (dk ++ (dj ++ (di ++ q))))))
  | .mspr on => some (11#4 ++ (0#27 ++ BitVec.ofBool on))
  | .mbz d t => some (12#4 ++ (0#3 ++ (t ++ (0#13 ++ d))))
  | .mjmp t => some (13#4 ++ (0#3 ++ (t ++ 0#16)))
  | .mwait n => some (14#4 ++ (0#12 ++ n))
  | .mnop => some (15#4 ++ 0#28)
  | _ => none

/-- The encoding of an instruction: how many bits, and the bits; none for a step of the device, which has no encoding. -/
def encode (i : Instr) : Option (Nat × Nat) :=
  match encodeSlot i with
  | some (_, w) => some (24, w.toNat)
  | none =>
    match encodeMicro i with
    | some w => some (32, w.toNat)
    | none => none

/-- The classes in which decodeTableWord looks for a trigger, in order (assumption 4). -/
def tableClasses : List Cls := [.c0, .c2, .c4, .c6, .c7]

/-- The first class of the list in which the word's destination is a trigger. -/
noncomputable def tableTrig (w : Word24) : List Cls → Option Instr
  | [] => none
  | c :: cs =>
    match trigOf c (slotDst w) with
    | some op => some (op.instr (slotDst w) (Slot.ofWord w))
    | none => tableTrig w cs

/-- The instruction of a table word: 24 bits are a slot word, read in the first class that has a trigger at its
destination, else as a move; 32 bits are a micro-operation. -/
noncomputable def decodeTableWord (nbits w : Nat) : Option Instr :=
  match nbits with
  | 24 =>
    if (BitVec.ofNat 24 w).getLsbD 0 then none
    else
      match tableTrig (BitVec.ofNat 24 w) tableClasses with
      | some i => some i
      | none => (decodeSlot .c0 (BitVec.ofNat 24 w)).or (decodeSlot .c6 (BitVec.ofNat 24 w))
  | 32 => decodeMicro (BitVec.ofNat 32 w)
  | _ => none

end Sys2Proof
end

