-- ==== Sys2Proof/Config.lean ====
section
/-!
DEFINITION. What the spec leaves open, as constants without a body: nothing in Lean can tell their values. Each is
applied to the state's counter of free choices, or to the operands it depends on; the limits the spec sets are applied
where the value is used (assumptions 5, 6, 9, 11 to 14, 20, 33, 36, 53, 56, 58).
-/
namespace Sys2Proof.Config

/-- Core cycles to an NTREQ's answer (R40: at most 24). -/
opaque ntreqLatency : Nat → Nat
/-- PCC cycles before a segment's bytes arrive and are expanded (R82). -/
opaque segmentLatency : Nat → Nat
/-- PCC cycles before a metadata word arrives (R84). -/
opaque metadataLatency : Nat → Nat
/-- PCC cycles to a PROBE's answer (R167). -/
opaque probeLatency : Nat → Nat
/-- PCC cycles to a CATOM's answer (R181). -/
opaque catomLatency : Nat → Nat
/-- PCC cycles from a transfer's beginning, or a chunk, to the next chunk's last byte (R173, R174). -/
opaque copyLatency : Nat → Nat
/-- PCC cycles to a stream's next granule (R178). -/
opaque streamLatency : Nat → Nat
/-- The governor's split of a bundle under power pressure (R54: k = 1, 2 or 4). -/
opaque splitChoice : Nat → Nat
/-- The first removed cycle of each eight in SKIP (R349). -/
opaque skipPosition : Nat → Nat
/-- PCC cycles of a dump's encryption, signing and writing (R325, R326). -/
opaque dumpLatency : Nat → Nat
/-- Core cycles of a capture's hold (R325: at most 15,360). -/
opaque captureHold : Nat → Nat
/-- A special function's choice among the results its error bound allows: function, format, operand code (R152). -/
opaque sfChoice : Nat → Nat → Nat → Nat
/-- The fresh content key and nonce of a dump (R326). -/
opaque dumpKey : Nat → BitVec 256
opaque dumpNonce : Nat → BitVec 96
/-- AES-256-GCM under a key, nonce and associated data: ciphertext and 16-byte tag (R326). -/
opaque gcmCipher : BitVec 256 → BitVec 96 → List Byte → List Byte → List Byte
opaque gcmTag : BitVec 256 → BitVec 96 → List Byte → List Byte → BitVec 128
/-- AES key wrap of a content key (R326): 40 bytes. -/
opaque keyWrap : BitVec 256 → BitVec 256 → BitVec 320
/-- The SHAKE256 digest of 64 bytes, and an ML-DSA-65 signature of 3,309 bytes by the device identity key (R326, R373). -/
opaque shake256 : List Byte → BitVec 512
opaque identitySign : BitVec 512 → BitVec 26472
/-- Genand's production key's signature of the survival map, at manufacture (R237). -/
opaque productionSign : BitVec 512 → BitVec 26472
/-- A host event's bytes after its type: of the type, the PCC and the type's fields (R374). -/
opaque eventBytes : Nat → Nat → List Nat → List Byte
/-- Whether an element of a transfer that may perform in the present core cycle does, and whether it performs as the cycle's
reads or its writes do (R158, R263, R268: no order between them is specified). -/
opaque copyTake : Nat → Bool
/-- The measurement recorded by a boot stage (R373). -/
opaque stageDigest : Nat → BitVec 256
/-- The channel that serves a physical address, and the die whose stacks hold it (R345, R352: the map is not stated). -/
opaque channel : Nat → Nat
opaque memDie : Nat → Nat
/-- PCC cycles of a boundary's training, and whether it ends with the boundary up (R368: within 50 ms). -/
opaque trainingLatency : Nat → Nat
opaque trainingUp : Nat → Bool
/-- The physical address of the page placed at boot stage 4, and the certificate chain it holds (R373). -/
opaque bootPageAt : Nat
opaque certChain : List Byte
/-- The offset of a saved launch in a migration area (R353). -/
opaque areaOffset : Nat → Nat
/-- The weight set of controller events, which have no operating point, and the fused limits of a class's weight (R346). -/
opaque controllerSet : Nat
opaque weightMin : Nat → BitVec 16
opaque weightMax : Nat → BitVec 16
/-- PCC cycles of a partition reset (R343: at most 4 ms). -/
opaque resetLatency : Nat → Nat
/-- A byte of contents that the spec leaves open, by its place: what a destructive test leaves in a row, what a transfer
leaves at a core lost or stopped or on crossing a failed boundary, a watch record's agent kind (R245, R260, R309, R355). -/
opaque openByte : Nat → Nat → Byte
/-- The records of the ring at WATCHBASE, and whether it is full when a record comes (R260: neither its size nor its read index is
stated). -/
opaque watchSlots : Nat
opaque watchFull : Nat → Bool
/-- Whether the governor runs ballast in a core cycle before a routine's start (R349). -/
opaque ballast : Nat → Bool

end Sys2Proof.Config
end

