-- ==== Sys2Proof/Machine/Float.lean ====
section
/-!
DEFINITION. The number formats of 04_number_formats: exact values, rounding, flags and special values (R88 to R112).
Elements are handled as natural-number codes of the element's width; an exact value is a dyadic number.
-/
namespace Sys2Proof.Machine

/-- The flag bits of FLG (R19). -/
abbrev Flags := W32

abbrev Flags.nv : Flags := 0x01
abbrev Flags.of : Flags := 0x02
abbrev Flags.uf : Flags := 0x04
abbrev Flags.nx : Flags := 0x08
abbrev Flags.sat : Flags := 0x10
abbrev Flags.nanSeen : Flags := 0x20
abbrev Flags.dw : Flags := 0x40
abbrev Flags.lateCpy : Flags := 0x80

/-- The parameters of a floating format (R89). -/
structure Fmt where
  w : Nat
  mb : Nat
  bias : Nat
  hasInf : Bool
  /-- The magnitude code of the largest finite value. -/
  maxCode : Nat
  /-- The canonical NaN; none for FP4 E2M1. -/
  nan : Option Nat
  deriving DecidableEq, Repr

abbrev fp32 : Fmt := { w := 32, mb := 23, bias := 127, hasInf := true, maxCode := 0x7F7FFFFF, nan := some 0x7FC00000 }
abbrev bf16 : Fmt := { w := 16, mb := 7, bias := 127, hasInf := true, maxCode := 0x7F7F, nan := some 0x7FC0 }
abbrev fp16 : Fmt := { w := 16, mb := 10, bias := 15, hasInf := true, maxCode := 0x7BFF, nan := some 0x7E00 }
abbrev e4m3 : Fmt := { w := 8, mb := 3, bias := 7, hasInf := false, maxCode := 0x7E, nan := some 0x7F }
abbrev e5m2 : Fmt := { w := 8, mb := 2, bias := 15, hasInf := true, maxCode := 0x7B, nan := some 0x7E }
abbrev e2m1 : Fmt := { w := 4, mb := 1, bias := 1, hasInf := false, maxCode := 0x7, nan := none }

/-- The floating format a tag names (R18, R88). -/
def fmtOf (t : Tag) : Option Fmt :=
  match t.toNat with
  | 1 => some fp32 | 2 => some bf16 | 3 => some fp16 | 4 => some e4m3 | 5 => some e5m2 | 6 => some e2m1
  | _ => none

/-- The element width of a tag (R88); NONE works on 32-bit elements where it gives the width (R137). -/
def tagWidth (t : Tag) : Nat :=
  match t.toNat with
  | 1 => 32 | 2 => 16 | 3 => 16 | 4 => 8 | 5 => 8 | 6 => 4 | 7 => 8 | 8 => 32 | 9 => 16 | 10 => 8 | 11 => 4 | 12 => 4
  | _ => 32

/-- An exact dyadic number: (-1)^neg * n * 2^e; n = 0 is a signed zero. -/
structure Dy where
  neg : Bool
  n : Nat
  e : Int
  deriving DecidableEq, Repr

/-- The dyadic's integer at exponent b, which is at most d.e. -/
def Dy.at (d : Dy) (b : Int) : Int :=
  let m := Int.ofNat (d.n * 2 ^ (d.e - b).toNat)
  if d.neg then -m else m

/-- A dyadic of an integer at an exponent. -/
def Dy.ofInt (z : Int) (e : Int) : Dy := { neg := decide (z < 0), n := z.natAbs, e := e }

/-- The exact sum; a zero sum is +0. -/
def Dy.add (a b : Dy) : Dy :=
  let m := min a.e b.e
  Dy.ofInt (a.at m + b.at m) m

/-- The exact product. -/
def Dy.mul (a b : Dy) : Dy := { neg := a.neg != b.neg, n := a.n * b.n, e := a.e + b.e }

/-- The value of an element: a NaN, an infinity or a finite value. -/
inductive Fv where
  | nan
  | inf (neg : Bool)
  | fin (d : Dy)
  deriving DecidableEq, Repr

/-- The value of a code of a floating format (R89, R90). -/
def Fmt.value (f : Fmt) (c : Nat) : Fv :=
  let neg := c.testBit (f.w - 1)
  let mag := c % 2 ^ (f.w - 1)
  let ex := mag / 2 ^ f.mb
  let mant := mag % 2 ^ f.mb
  if mag ≤ f.maxCode then
    if ex = 0 then .fin { neg := neg, n := mant, e := 1 - Int.ofNat f.bias - Int.ofNat f.mb }
    else .fin { neg := neg, n := 2 ^ f.mb + mant, e := Int.ofNat ex - Int.ofNat f.bias - Int.ofNat f.mb }
  else if f.hasInf && mag == f.maxCode + 1 then .inf neg
  else .nan

/-- The code with a sign over a magnitude code. -/
def Fmt.signed (f : Fmt) (neg : Bool) (mag : Nat) : Nat := if neg then mag + 2 ^ (f.w - 1) else mag

/-- The canonical NaN (R93); FP4 E2M1 has none and gives +0 (R104). -/
def Fmt.canonNan (f : Fmt) : Nat := f.nan.getD 0

/-- An infinity, or the largest finite value of a format without infinities. -/
def Fmt.infCode (f : Fmt) (neg : Bool) : Nat := f.signed neg (if f.hasInf then f.maxCode + 1 else f.maxCode)

/-- What an overflow delivers (R102). -/
def Fmt.overflow (f : Fmt) (rm : Rm) (neg : Bool) : Nat :=
  if !f.hasInf then f.signed neg f.maxCode
  else
    match rm with
    | .rne => f.infCode neg
    | .rtz => f.signed neg f.maxCode
    | .rdn => if neg then f.infCode true else f.signed false f.maxCode
    | .rup => if neg then f.signed true f.maxCode else f.infCode false

/-- n / 2^k rounded to an integer in a mode, with the sign of the value, and whether it was inexact (R99). -/
def roundShift (rm : Rm) (neg : Bool) (n k : Nat) : Nat × Bool :=
  let q := n / 2 ^ k
  let r := n % 2 ^ k
  if r = 0 then (q, false)
  else
    let up : Bool :=
      match rm with
      | .rne => decide (2 ^ k < 2 * r) || (decide (2 ^ k = 2 * r) && decide (q % 2 = 1))
      | .rtz => false
      | .rdn => neg
      | .rup => !neg
    (if up then q + 1 else q, true)

/-- A finite value rounded to a format, with its flags (R99, R101, R102). A result is tiny when its delivered magnitude
is below the format's min normal (assumption 18). -/
def Fmt.round (f : Fmt) (rm : Rm) (d : Dy) : Nat × Flags :=
  if d.n = 0 then (f.signed d.neg 0, 0)
  else
    let emin : Int := 1 - Int.ofNat f.bias
    let ex : Int := Int.ofNat d.n.log2 + d.e
    let q : Int := max ex emin - Int.ofNat f.mb
    let mi := if q ≤ d.e then (d.n * 2 ^ (d.e - q).toNat, false) else roundShift rm d.neg d.n (q - d.e).toNat
    let code := (max ex emin - emin).toNat * 2 ^ f.mb + mi.1
    if f.maxCode < code then (f.overflow rm d.neg, Flags.of ||| Flags.nx)
    else
      (f.signed d.neg code,
        if mi.2 then (if code < 2 ^ f.mb then Flags.nx ||| Flags.uf else Flags.nx) else 0)

/-- A value delivered in a floating format other than by conversion: a NaN result is canonical and raises NANSEEN, an
infinity is exact (R101, R102). -/
def Fmt.deliver (f : Fmt) (rm : Rm) (v : Fv) : Nat × Flags :=
  match v with
  | .nan => (f.canonNan, Flags.nanSeen)
  | .inf neg => (f.infCode neg, 0)
  | .fin d => f.round rm d

/-- The sign of an exact zero sum of two terms (R99). -/
def zeroSumSign (rm : Rm) (a b : Bool) : Bool := if a == b then a else rm == .rdn

/-- The exact sum of two values; NV for infinities of opposite sign (R99, R101). -/
def Fv.add (rm : Rm) (a b : Fv) : Fv × Flags :=
  match a, b with
  | .nan, _ => (.nan, 0)
  | _, .nan => (.nan, 0)
  | .inf x, .inf y => if x == y then (.inf x, 0) else (.nan, Flags.nv)
  | .inf x, .fin _ => (.inf x, 0)
  | .fin _, .inf y => (.inf y, 0)
  | .fin x, .fin y =>
    let z := Dy.add x y
    (.fin (if z.n = 0 then { z with neg := zeroSumSign rm x.neg y.neg } else z), 0)

/-- The exact product of two values; NV for 0 times infinity (R101). -/
def Fv.mul (a b : Fv) : Fv × Flags :=
  match a, b with
  | .nan, _ => (.nan, 0)
  | _, .nan => (.nan, 0)
  | .inf x, .inf y => (.inf (x != y), 0)
  | .inf x, .fin d => if d.n = 0 then (.nan, Flags.nv) else (.inf (x != d.neg), 0)
  | .fin d, .inf x => if d.n = 0 then (.nan, Flags.nv) else (.inf (x != d.neg), 0)
  | .fin x, .fin y => (.fin (Dy.mul x y), 0)

def Fv.negate (a : Fv) : Fv :=
  match a with
  | .nan => .nan
  | .inf x => .inf (!x)
  | .fin d => .fin { d with neg := !d.neg }

def Fv.isNan (a : Fv) : Bool := match a with | .nan => true | _ => false
def Fv.isInf (a : Fv) : Bool := match a with | .inf _ => true | _ => false
def Fv.isZero (a : Fv) : Bool := match a with | .fin d => d.n == 0 | _ => false

/-- VFADD's element: round(a + b) (R143). -/
def fAdd (f : Fmt) (rm : Rm) (a b : Nat) : Nat × Flags :=
  let s := Fv.add rm (f.value a) (f.value b)
  let r := f.deliver rm s.1
  (r.1, s.2 ||| r.2)

/-- VFSUB's element: round(a - b) (R143). -/
def fSub (f : Fmt) (rm : Rm) (a b : Nat) : Nat × Flags :=
  let s := Fv.add rm (f.value a) (f.value b).negate
  let r := f.deliver rm s.1
  (r.1, s.2 ||| r.2)

/-- VFMUL's element: round(a * b) (R143). -/
def fMul (f : Fmt) (rm : Rm) (a b : Nat) : Nat × Flags :=
  let p := Fv.mul (f.value a) (f.value b)
  let r := f.deliver rm p.1
  (r.1, p.2 ||| r.2)

/-- VFMA's element: round(a * b + c), one rounding (R143). A product of 0 and infinity raises NV whatever c holds, so
also beside a NaN in c. -/
def fMa (f : Fmt) (rm : Rm) (a b c : Nat) : Nat × Flags :=
  let p := Fv.mul (f.value a) (f.value b)
  let s := Fv.add rm p.1 (f.value c)
  let r := f.deliver rm s.1
  (r.1, p.2 ||| s.2 ||| r.2)

/-- The order key of a non-NaN code with -0 below +0 (R143, R146). -/
def Fmt.key (f : Fmt) (c : Nat) : Int :=
  if c.testBit (f.w - 1) then -(Int.ofNat (c % 2 ^ (f.w - 1))) - 1 else Int.ofNat (c % 2 ^ (f.w - 1))

/-- The order key of a non-NaN code with -0 = +0 (R142). -/
def Fmt.numKey (f : Fmt) (c : Nat) : Int :=
  if c.testBit (f.w - 1) then -(Int.ofNat (c % 2 ^ (f.w - 1))) else Int.ofNat (c % 2 ^ (f.w - 1))

/-- VFMIN's and VFMAX's element (R143). -/
def fMinMax (f : Fmt) (mx : Bool) (a b : Nat) : Nat × Flags :=
  if (f.value a).isNan || (f.value b).isNan then (f.canonNan, Flags.nanSeen)
  else if (if mx then decide (f.key a < f.key b) else decide (f.key b < f.key a)) then (b, 0) else (a, 0)

/-- The floating compares (R142). -/
inductive FCmp where
  | eq | lt | le | un
  deriving DecidableEq, Repr

/-- A floating compare of two codes; a NaN raises NANSEEN (R142). -/
def fCmp (f : Fmt) (c : FCmp) (a b : Nat) : Bool × Flags :=
  let nan := (f.value a).isNan || (f.value b).isNan
  let fl := if nan then Flags.nanSeen else 0
  match c with
  | .un => (nan, fl)
  | .eq => (!nan && f.numKey a == f.numKey b, fl)
  | .lt => (!nan && decide (f.numKey a < f.numKey b), fl)
  | .le => (!nan && decide (f.numKey a ≤ f.numKey b), fl)

/-- What an exact sum of a list of terms carries: whether a NaN, each infinity and the finite sum so far. -/
structure SumAcc where
  nan : Bool := false
  pinf : Bool := false
  ninf : Bool := false
  sum : Dy := { neg := false, n := 0, e := 0 }
  /-- Every term so far is a -0 (R107). -/
  allNegZero : Bool := true
  deriving DecidableEq, Repr

/-- One more term of an exact sum. -/
def SumAcc.push (a : SumAcc) (v : Fv) : SumAcc :=
  match v with
  | .nan => { a with nan := true, allNegZero := false }
  | .inf neg => if neg then { a with ninf := true, allNegZero := false } else { a with pinf := true, allNegZero := false }
  | .fin d => { a with sum := Dy.add a.sum d, allNegZero := a.allNegZero && d.n == 0 && d.neg }

/-- The value of an exact sum by R108: NaN, then opposed infinities (NV), then an infinity, then the finite sum. The
sign of a zero sum is the argument. -/
def SumAcc.value (a : SumAcc) (negZero : Bool) : Fv × Flags :=
  if a.nan then (.nan, 0)
  else if a.pinf && a.ninf then (.nan, Flags.nv)
  else if a.pinf then (.inf false, 0)
  else if a.ninf then (.inf true, 0)
  else (.fin (if a.sum.n = 0 then { a.sum with neg := negZero } else a.sum), 0)

/-! ## Integers (R94) and N4X pairs (R95) -/

/-- The signed reading of a w-bit code. -/
def sgnOf (w c : Nat) : Int := if c.testBit (w - 1) then Int.ofNat c - Int.ofNat (2 ^ w) else Int.ofNat c

/-- The w-bit code of an integer, modulo 2^w. -/
def wrapTo (w : Nat) (z : Int) : Nat := (z % Int.ofNat (2 ^ w)).toNat

/-- An integer clamped to lo .. hi, and whether it was (R106). -/
def clampTo (lo hi z : Int) : Int × Bool := if z < lo then (lo, true) else if hi < z then (hi, true) else (z, false)

/-- An integer clamped to the signed w-bit range, as a code, with SAT if it clamped (R106). -/
def satSigned (w : Nat) (z : Int) : Nat × Flags :=
  let r := clampTo (-(Int.ofNat (2 ^ (w - 1)))) (Int.ofNat (2 ^ (w - 1)) - 1) z
  (wrapTo w r.1, if r.2 then Flags.sat else 0)

/-- An integer clamped to the unsigned w-bit range, as a code, with SAT if it clamped (R106). -/
def satUnsigned (w : Nat) (z : Int) : Nat × Flags :=
  let r := clampTo 0 (Int.ofNat (2 ^ w) - 1) z
  (wrapTo w r.1, if r.2 then Flags.sat else 0)

/-- The outlier value of a nibble q = s e2 e1 e0: (-1)^s * 2^(e - 7) with e = 1 e2 e1 e0 (R95). -/
def outlierOf (q : Nat) : Int :=
  let m := Int.ofNat (2 ^ (1 + q % 8))
  if q.testBit 3 then -m else m

/-- The value of the N4X element lo/hi of a byte, with NV for a malformed pair (R95). -/
def n4xValue (byte : Nat) (hi : Bool) : Int × Flags :=
  let l := byte % 16
  let h := byte / 16 % 16
  if l == 8 && h == 8 then (0, Flags.nv)
  else if l == 8 then (if hi then 0 else outlierOf h, 0)
  else if h == 8 then (if hi then outlierOf l else 0, 0)
  else (sgnOf 4 (if hi then h else l), 0)

/-! ## Conversions (R104, R105, R149) -/

/-- An exact source element: a floating value, or an integer. -/
inductive SrcEl where
  | flt (v : Fv)
  | int (z : Int)
  deriving DecidableEq, Repr

/-- The value of an E8M0 code (R92). -/
def e8m0Value (c : Nat) : Fv := if c = 255 then .nan else .fin { neg := false, n := 1, e := Int.ofNat c - 127 }

/-- Element j of a vector's bits at width w. -/
def elemAt (v : Nat) (w j : Nat) : Nat := v / 2 ^ (w * j) % 2 ^ w

/-- Element j of a vector read as a format, with the NV of a malformed N4X pair (R88, R92, R94, R95). -/
def srcElem (t : Tag) (v j : Nat) : SrcEl × Flags :=
  match t.toNat with
  | 7 => (.flt (e8m0Value (elemAt v 8 j)), 0)
  | 12 =>
    let r := n4xValue (elemAt v 8 (j / 2)) (j % 2 == 1)
    (.int r.1, r.2)
  | _ =>
    match fmtOf t with
    | some f => (.flt (f.value (elemAt v f.w j)), 0)
    | none => (.int (sgnOf (tagWidth t) (elemAt v (tagWidth t) j)), 0)

/-- A finite value rounded to an integer, and whether it was inexact (R105). -/
def roundInt (rm : Rm) (d : Dy) : Int × Bool :=
  if 0 ≤ d.e then (d.at 0, false)
  else
    let r := roundShift rm d.neg d.n (-d.e).toNat
    (if d.neg then -(Int.ofNat r.1) else Int.ofNat r.1, r.2)

/-- The range of an integer destination: the format's, or -7 .. 7 for N4X (R149). -/
def intRange (t : Tag) : Int × Int :=
  if t.toNat = 12 then (-7, 7)
  else (-(Int.ofNat (2 ^ (tagWidth t - 1))), Int.ofNat (2 ^ (tagWidth t - 1)) - 1)

/-- The magnitude of a finite non-zero value to E8M0: 2^floor(log2), clamped (R104). -/
def toE8m0 (d : Dy) : Nat × Flags :=
  if d.n = 0 then (0, Flags.uf ||| Flags.nx)
  else
    let ex := Int.ofNat d.n.log2 + d.e
    if 127 < ex then (254, Flags.of ||| Flags.nx)
    else if ex < -127 then (0, Flags.uf ||| Flags.nx)
    else ((ex + 127).toNat, if d.n = 2 ^ d.n.log2 then 0 else Flags.nx)

/-- A conversion of one element to a destination format (R104, R105, R149): code and flags. Where R104 and R105 have no row
(an integer or N4X source to E8M0, an E8M0 source to an integer) the magnitude's power of two and the floating rule hold
(assumption 61). -/
def convertEl (dst : Tag) (rm : Rm) (s : Bool) (x : SrcEl) : Nat × Flags :=
  match fmtOf dst with
  | some f =>
    match x with
    | .int z => f.round rm (Dy.ofInt z 0)
    | .flt .nan =>
      if f.nan.isNone then (0, Flags.nv ||| Flags.nanSeen) else (f.canonNan, Flags.nanSeen)
    | .flt (.inf neg) =>
      if f.hasInf then (f.infCode neg, 0)
      else if f.nan.isNone then (f.signed neg f.maxCode, Flags.nv)
      else (f.canonNan, Flags.nv ||| Flags.nanSeen)
    | .flt (.fin d) => f.round rm d
  | none =>
    if dst.toNat = 7 then
      match x with
      | .int z => toE8m0 (Dy.ofInt z 0)
      | .flt .nan => (255, Flags.nanSeen)
      | .flt (.inf _) => (255, Flags.nv ||| Flags.nanSeen)
      | .flt (.fin d) => toE8m0 d
    else
      let w := tagWidth dst
      let r := intRange dst
      match x with
      | .int z =>
        if dst.toNat = 12 || s then
          let c := clampTo r.1 r.2 z
          (wrapTo w c.1, if c.2 then Flags.sat else 0)
        else (wrapTo w z, 0)
      | .flt .nan => (0, Flags.nv ||| Flags.nanSeen)
      | .flt (.inf neg) => (wrapTo w (if neg then r.1 else r.2), Flags.nv)
      | .flt (.fin d) =>
        let q := roundInt rm d
        let c := clampTo r.1 r.2 q.1
        (wrapTo w c.1, if c.2 then Flags.nv else if q.2 then Flags.nx else 0)

/-- The flags of an element: one that raises NV raises no NX, UF or OF (R101). -/
def elFlags (fl : Flags) : Flags :=
  if fl &&& Flags.nv = 0 then fl else fl &&& ~~~(Flags.nx ||| Flags.uf ||| Flags.of)

/-- mag(x) of R111 as an FP32 code; none for a NaN. For a Scale format, which R111 does not name, it is the code's power of two, and the
code 0xFF is a NaN: DESIGN CHOICE, unsafe (assumption 83). -/
def magFp32 (x : SrcEl) : Option Nat :=
  match x with
  | .flt .nan => none
  | .flt (.inf _) => some 0x7F800000
  | .flt (.fin d) => some (fp32.round .rne { d with neg := false }).1
  | .int z => some (fp32.round .rup { neg := false, n := z.natAbs, e := 0 }).1

/-- A drained element: round(acc * ts) in a drain format (R110), from its FP32 or INT32 accumulator value and the FP32
tensor scale. -/
def drainEl (dst : Tag) (acc : SrcEl) (ts : Fv) : Nat × Flags :=
  let a : Fv := match acc with | .flt v => v | .int z => .fin (Dy.ofInt z 0)
  let p := Fv.mul a ts
  match p.1 with
  | .nan =>
    match fmtOf dst with
    | some f => (f.canonNan, p.2 ||| Flags.nanSeen)
    | none => (0, p.2 ||| Flags.nanSeen)
  | v =>
    let r := convertEl dst .rne false (.flt v)
    (r.1, p.2 ||| r.2)

end Sys2Proof.Machine
end

