-- ==== Sys2Proof/Machine/SMap.lean ====
section
/-!
DEFINITION. Plain finite maps and byte memories. A map is a list of key and value pairs; a memory is a list of
(address, byte) pairs in one canonical form: addresses strictly rising, no listed byte equal to what an unlisted
address reads as, which is 0 (assumption 1 for main memory; R239 for the scratch and the Larder).
-/
namespace Sys2Proof.Machine

/-- A map from numbers: the first pair of a key is its value. -/
abbrev SMap (α : Type) := List (Nat × α)

/-- The value at a key, or the default. -/
def SMap.get {α : Type} (d : α) (m : SMap α) (k : Nat) : α :=
  match m with
  | [] => d
  | (k', v) :: r => if k' = k then v else SMap.get d r k

/-- The map with one key's value replaced; keys stay in rising order. -/
def SMap.put {α : Type} (m : SMap α) (k : Nat) (v : α) : SMap α :=
  match m with
  | [] => [(k, v)]
  | (k', v') :: r =>
    if k' = k then (k, v) :: r
    else if k < k' then (k, v) :: (k', v') :: r
    else (k', v') :: SMap.put r k v

/-- The value at a key, if it has one. -/
def SMap.find {α : Type} (m : SMap α) (k : Nat) : Option α :=
  match m with
  | [] => none
  | (k', v) :: r => if k' = k then some v else SMap.find r k

/-- The map without a key. -/
def SMap.del {α : Type} (m : SMap α) (k : Nat) : SMap α := m.filter fun p => p.1 ≠ k

/-- Every value mapped. -/
def SMap.mapVal {α β : Type} (f : Nat → α → β) (m : SMap α) : SMap β := m.map fun p => (p.1, f p.1 p.2)

/-- An element put before the first one it may stand before. -/
def insertBy {α : Type} (le : α → α → Bool) (x : α) (l : List α) : List α :=
  match l with
  | [] => [x]
  | y :: r => if le x y then x :: y :: r else y :: insertBy le x r

/-- A list in an order; elements the order does not tell apart stay as they stood. -/
def sortBy {α : Type} (le : α → α → Bool) (l : List α) : List α := l.foldr (insertBy le) []

/-- A byte memory in canonical form. -/
abbrev Memory := List Host.Cell

/-- What an unlisted address reads as. -/
abbrev Memory.blank : Byte := 0

/-- The byte at an address. -/
def Memory.read (m : Memory) (a : Nat) : Byte :=
  match m with
  | [] => Memory.blank
  | (a', b) :: r => if a' = a then b else Memory.read r a

/-- The listing with a byte put at its address. -/
def Memory.insert (m : Memory) (a : Nat) (b : Byte) : Memory :=
  match m with
  | [] => [(a, b)]
  | (a', b') :: r =>
    if a < a' then (a, b) :: (a', b') :: r
    else if a = a' then (a, b) :: r
    else (a', b') :: Memory.insert r a b

/-- One byte written: a listed non-blank byte, or no entry. -/
def Memory.write (m : Memory) (a : Nat) (b : Byte) : Memory :=
  if b = Memory.blank then m.filter (fun c => c.1 ≠ a) else Memory.insert m a b

/-- The canonical form: addresses strictly rising, no blank byte listed. -/
def Memory.wf (m : Memory) : Bool :=
  match m with
  | [] => true
  | (_, b) :: [] => b != Memory.blank
  | (a, b) :: (a', b') :: r => b != Memory.blank && decide (a < a') && Memory.wf ((a', b') :: r)

/-- n bytes from an address upward. -/
def Memory.readBytes (m : Memory) (a n : Nat) : List Byte := (List.range n).map fun i => m.read (a + i)

/-- Bytes written from an address upward. -/
def Memory.writeBytes (m : Memory) (a : Nat) (bs : List Byte) : Memory :=
  match bs with
  | [] => m
  | b :: r => Memory.writeBytes (m.write a b) (a + 1) r

/-- The little-endian number of a byte list (R4). -/
def leNat (bs : List Byte) : Nat :=
  match bs with
  | [] => 0
  | b :: r => b.toNat + 256 * leNat r

/-- The n low bytes of a number, little-endian (R4). -/
def leBytes (n v : Nat) : List Byte :=
  match n with
  | 0 => []
  | k + 1 => BitVec.ofNat 8 v :: leBytes k (v / 256)

/-- The little-endian number of n bytes at an address (R4). -/
def Memory.readLe (m : Memory) (a n : Nat) : Nat := leNat (m.readBytes a n)

/-- A number's n low bytes written at an address (R4). -/
def Memory.writeLe (m : Memory) (a n v : Nat) : Memory := m.writeBytes a (leBytes n v)

end Sys2Proof.Machine
end

