-- ==== Sys2Proof/Machine/State.lean ====
section
/-!
DEFINITION. The state of the whole device as plain data: contexts, cores, launches, partitions, dies and the package;
State.reset, the machine after package cold reset; and the reasons a step can stop. Time is counted in PCC ticks from
cold reset; the 64-bit PCC a program reads is that count modulo 2^64 (R25).
-/
namespace Sys2Proof.Machine

/-- A vector-width value with its format tag (R18). -/
structure TVal where
  val : W2048 := 0
  tag : Tag := 0
  deriving DecidableEq, Repr

/-- A face of an accumulator tile with its tag (R10, R18). -/
structure TileVal where
  val : Tile := 0
  tag : Tag := 0
  deriving DecidableEq, Repr

/-- A two-faced register with its written bit (R10, R16). sw counts exchanges modulo 2: which of a pool register's two
rows holds the visible face (R28; the first row at load is the model's choice, assumption 8). -/
structure Face (α : Type) where
  vis : α
  hid : α
  wr : Bool := false
  sw : Bool := false
  deriving DecidableEq, Repr

/-- FLG: both faces, the written bit, the phase accumulator and clr (R19, R20). -/
structure FlgReg where
  vis : W32 := 0
  hid : W32 := 0
  wr : Bool := false
  acc : W32 := 0
  clr : W32 := 0
  deriving DecidableEq, Repr

/-- The registers of a context (R10, R33). -/
structure RegFile where
  s : SMap (Face W32) := []
  a : SMap (Face W64) := []
  v : SMap (Face TVal) := []
  p : SMap (Face Bool) := []
  m : SMap (Face W256) := []
  nt : SMap (Face W64) := []
  am : SMap (Face W32) := []
  acc : SMap (Face TileVal) := []
  flg : FlgReg := {}
  grp : SMap Byte := []
  deriving DecidableEq, Repr

/-- A loop level (R23, R124). -/
structure LoopLevel where
  count : W32
  start : W64
  stop : W64
  deriving DecidableEq, Repr

/-- A result in a synchronous pipeline (R45): issue order, port, delivery sc, value, flags raised at delivery. -/
structure InFlight where
  seq : Nat
  port : Nat
  due : W64
  res : TVal
  flags : W32
  deriving DecidableEq, Repr

/-- An am update not landed (R40, R111): register, issuing slot, landing sc, value. -/
structure AmWrite where
  am : Nat
  slot : Nat
  issued : W64
  due : W64
  val : W32
  deriving DecidableEq, Repr

/-- The per-context state that a phase rollback restores (R60). -/
structure CtxArch where
  pc : W64 := 0
  mpc : W64 := 0
  sclk : W64 := 0
  loops : List LoopLevel := []
  nti : BitVec 2 := 0
  bind : BitVec 4 := 0
  regs : RegFile := {}
  /-- Result ports by source ID (R21, R76). -/
  ports : SMap TVal := []
  /-- Operand ports by 512 * class + destination ID (R47, R78); slots 3 and 5 use classes 3 and 5. -/
  opnd : SMap TVal := []
  hsel : W32 := 0
  pipe : List InFlight := []
  amPend : List AmWrite := []
  /-- The phase's TRAPs: first code and count (R131). -/
  trapCode : BitVec 16 := 0
  trapCount : Nat := 0
  /-- The arithmetic traps recorded in the phase, as FLG bits (R103). -/
  arith : W32 := 0
  deriving DecidableEq, Repr

/-- The states of a context (R184, R302). -/
inductive CtxStatus where
  | absent | ready | blocked | awaiting | inService | halted | stopped
  deriving DecidableEq, Repr

/-- A blocking operation's condition (R130): a barrier's group, a bitmap mask, a write pointer's threshold; done: a barrier's that
has been released (R129, R296). -/
inductive BlockCond where
  | bar (g : Byte)
  | done
  | waitbm (b : Nat) (m : W64)
  | waitwp (j : Bool) (w : W64)
  deriving DecidableEq, Repr

/-- The end of a bundle with F set, until its flip (R41, R49): the code address of the bundle and the core
cycle of its last non-empty sub-bundle. -/
structure FlipInfo where
  pc : W64 := 0
  last : Nat := 0
  wait : Bool := false
  safe : Option Nat := none
  block : Option BlockCond := none
  barStep : Nat := 0
  halt : Bool := false
  /-- ERET: action and redirect target (R132). -/
  eret : Option (Nat × W64) := none
  /-- MDRAIN's engines (R194). -/
  mdrain : List Bool := []
  deriving DecidableEq, Repr

/-- A handler entry's cause word and TRAP word (R184). -/
structure Entry where
  cause : W32 := 0
  trap : W32 := 0
  pcc : Nat := 0
  deriving DecidableEq, Repr

/-- An expanded code segment in a half of the loop buffer (R82): its virtual address, base code address, packets, the
successor's address, the error entering it raises (R82, R83), and the core cycle in which packet 0 is expanded. -/
structure Segment where
  va : W64 := 0
  base : W64 := 0
  pkts : List Packet := []
  next : W64 := 0
  count : Nat := 0
  err : Option (Nat × W64) := none
  ready : Nat := 0
  valid : Bool := false
  deriving DecidableEq, Repr

/-- A segment the prefetch engine is to expand into the half that is not current, at a PCC; current: that half then
becomes current and its successor is expanded into the other (R82). -/
structure FetchReq where
  va : W64
  current : Bool
  due : Nat
  deriving DecidableEq, Repr

/-- A context's prefetch engine: loop buffer, expansion requests and metadata buffer (R82, R84). -/
structure Prefetch where
  half0 : Segment := {}
  half1 : Segment := {}
  cur : Bool := false
  reqs : List FetchReq := []
  /-- Metadata words from MPC on, each with its translation-fault mark. -/
  mdbuf : List (W32 × Bool) := []
  deriving DecidableEq, Repr

/-- The place a step acts on. -/
structure Cursor where
  part : Nat := 0
  die : Nat := 0
  core : Nat := 0
  ctx : Nat := 0
  slot : Nat := 0
  hart : Nat := 0
  eng : Bool := false
  idx : Nat := 0
  deriving DecidableEq, Repr

/-- What a split bundle's operations see of the core's memories: the scratch, the Larder and the erring words as they stood
in its first cycle (R55). -/
structure SeenMem where
  scratch : Memory
  larder : Memory
  errs : SMap Bool
  deriving DecidableEq, Repr

/-- The cursor and the bundle in progress: its header, long immediates, code address, the effects that take place at its
end, and the fatal errors raised so far (code, detail). -/
structure Frame where
  cur : Cursor := {}
  hdr : Header := { rsv := 0, imm := 0, ops := 0, c := false, e := false, s := false, w := false, f := false, pm := 0 }
  li : List Word24 := []
  rest : List Word24 := []
  pc : W64 := 0
  fall : W64 := 0
  target : Option W64 := none
  /-- Core cycles of the first and last non-empty sub-bundle (R55). -/
  cyc0 : Nat := 0
  cyc1 : Nat := 0
  split : Nat := 1
  newMpc : Option W64 := none
  newBind : Option (BitVec 4) := none
  newHsel : Option W32 := none
  block : Option BlockCond := none
  barStep : Nat := 0
  halt : Bool := false
  eret : Option (Nat × W64) := none
  mdrain : List Bool := []
  /-- Banks that executed slots of the bundle write (R210). -/
  banks : BitVec 4 := 0
  /-- An executed slot of the bundle is an MCALL, whose engine is Busy from issue (R168, R201). -/
  calls : Bool := false
  /-- Physical rows that operations of the bundle have read and lost to an uncorrectable error (R61). -/
  lost : List Nat := []
  raised : List (Nat × W64) := []
  /-- The ports' values as the first sub-bundle's cycle read them, and the core's memories and erring words then (R55). -/
  srcs : SMap TVal := []
  seen : Option SeenMem := none
  deriving DecidableEq, Repr

/-- A split bundle in progress (R54, R55): its frame, the slots that execute, and the non-empty sub-bundles still to issue. -/
structure SplitRun where
  frame : Frame
  slots : List (Nat × Word24)
  subs : List Nat
  deriving DecidableEq, Repr

/-- A stop's particulars: errors (code, detail), the code address and SCLK the dump records, and the code address of the
command's bundle (R320, R326). -/
structure StopInfo where
  errs : List (Nat × W64)
  pc : W64
  sclk : W64
  cmd : W64 := 0
  /-- A data-loss among the errors is that of a register or tile row read as a source (R60, R250). -/
  reg : Bool := false
  deriving DecidableEq, Repr

/-- A queued XFER entry (R180): source, length in bytes, destination address and logical core, offset, and the code
address of its bundle. -/
structure XferEntry where
  ctx : Nat
  src : Nat
  len : Nat
  dst : Nat
  dcore : Nat
  ofs : Nat
  pc : W64
  /-- The core cycle from which its accesses may perform (R266). -/
  ready : Nat := 0
  /-- The PCC of the release it runs after, once released. -/
  rel : Option Nat := none
  /-- Its 8-byte elements not yet written, by offset, each with its bytes once read (R263). -/
  left : List (Nat × Option (List Byte)) := []
  deriving DecidableEq, Repr

/-- A PROBE, EVAC or LEASE (kinds 0, 1, 2) whose answer has not landed (R166): predicate, slot, code, EVAC's target or
LEASE's duration, and the core cycle (for LEASE the PCC) of the landing. -/
structure AnswerWait where
  kind : Nat
  pk : Nat
  slot : Nat
  issued : W64
  code : Nat
  arg : Nat := 0
  due : Nat
  /-- Its place among the issues of the core (R46). -/
  seq : Nat := 0
  deriving DecidableEq, Repr

/-- An MZERO not landed (R199): tile, engine, INT32, issuing sc, core cycle of the landing. -/
structure ZeroWait where
  tile : Nat
  eng : Bool
  int : Bool
  issued : W64
  due : Nat
  deriving DecidableEq, Repr

/-- A context: its rolled-back state, the copy at the phase's start, and its standing on the core. -/
structure Ctx where
  cur : CtxArch := {}
  start : CtxArch := {}
  /-- An operation that forbids rollback has issued in the phase (R60). -/
  noRoll : Bool := false
  replay : Bool := false
  status : CtxStatus := .absent
  /-- The state its flip gave it, to which ERET action 0 returns it (R58). -/
  after : CtxStatus := .ready
  cond : Option BlockCond := none
  flip : Option FlipInfo := none
  entry : Option Entry := none
  timer : Option Nat := none
  timerReq : Bool := false
  /-- PCC since which it has been ready without issuing (R302). -/
  since : Nat := 0
  /-- The first core cycle in which it may issue (R129, R302). -/
  first : Nat := 0
  /-- It stands at a safe point, with this live list (R304). -/
  safeAt : Option Nat := none
  /-- Its registers are those of a context save (R36). -/
  saved : Bool := false
  fetch : Prefetch := {}
  cb : SMap W64 := []
  xfers : List XferEntry := []
  answers : List AnswerWait := []
  /-- NTREQs issued and not landed: target register and issuing sc (R40). -/
  ntWait : List (Nat × W64) := []
  mzWait : List ZeroWait := []
  /-- Asynchronous writes of the phase that have landed, and those a stop has cancelled (R59, R328): writer, destination,
  issuing sc, value. -/
  landed : List (Nat × Nat × W64 × Option W64) := []
  cut : List (Nat × Nat × W64 × Option W64) := []
  /-- A split bundle whose later sub-bundles are still to issue (R54). -/
  split : Option SplitRun := none
  /-- What a rollback restores beside start (R60, R82, R84): the mp registers the phase has written, by 8 * engine + index, as
  they stood before; the metadata words buffered at its start; the segments its fetch has left. -/
  mpOld : SMap (Face W64) := []
  mdStart : List (W32 × Bool) := []
  kept : List Segment := []
  deriving DecidableEq, Repr

/-- A scratch access, or another effect at a fixed core cycle after its bundle (R157, R158). -/
inductive AccessKind where
  /-- A load into a port: address of each element, its bytes, element bits, sign extension to 32, tag, delivery sc. -/
  | load (addrs : List Nat) (bytes : Nat) (sext : Bool) (tag : Tag) (port : Nat) (due : W64) (seq : Nat)
  /-- A store of bytes, some masked off. -/
  | store (addr : Nat) (bytes : List (Option Byte)) (kind : Nat)
  /-- An atomic: operation, operand, compare value, port, delivery sc. -/
  | atomic (addr : Nat) (op : Nat) (x y : W32) (port : Nat) (due : W64) (seq : Nat)
  | shape (addr : Nat) (tile : W64)
  | wpset (idx mode : Nat) (w : Nat) (v k : W64)
  | ldsc (e : Bool) (entries : List (Tag × Byte))
  | mput (lslot row : Nat) (bytes : List Byte)
  | signal (t : W32)
  deriving DecidableEq, Repr

/-- An access issued and not performed: due core cycle, issuing context and slot, and the code address of its bundle. -/
structure Access where
  due : Nat
  ctx : Nat
  slot : Nat
  pc : W64
  sclk : W64
  kind : AccessKind
  deriving DecidableEq, Repr

/-- A tile opened by a routine: q, tile index, internal accumulator (R205, R206). -/
structure OpenTile where
  q : Nat
  tile : Nat
  val : Tile
  deriving DecidableEq, Repr

/-- A micro-loop level: address after the MLOOP, address of its MNEXT, count left (R206). -/
structure MicroLoop where
  body : Nat
  stop : Nat
  count : Nat
  deriving DecidableEq, Repr

/-- A routine accepted by an engine (R201 to R208). -/
structure Routine where
  ctx : Nat
  pc : W64
  sclk : W64
  startAt : W64
  started : Bool := false
  fill : Nat := 8
  mdw : W32 := 0
  upc : Nat := 0
  /-- Cycles left of the micro-operation in progress; 0: the next one begins in the next cycle. -/
  left : Nat := 0
  /-- Its cycle class (R208): 0 computing, 1 loading, 2 awaiting, 3 drain. -/
  cls : Nat := 2
  ending : Bool := false
  /-- Its last cycle is the present one: its writes land at the cycle's end (R208). -/
  done : Bool := false
  mx : SMap (BitVec 16) := []
  ad : Option W64 := none
  bd : Option W64 := none
  blk : Nat := 32
  spr : Bool := false
  tiles : List OpenTile := []
  /-- The tiles it opens, from the run made at issue (R202). -/
  opens : List Nat := []
  loops : List MicroLoop := []
  /-- Larder slots the routine reads (R196, R197). -/
  reads : List Nat := []
  dataLoss : Option W64 := none
  deriving DecidableEq, Repr

/-- A line of an engine's cycle-class table (R334): code address and five counters. -/
structure CycleLine where
  addr : W64
  counts : List Nat
  deriving DecidableEq, Repr

/-- A matrix engine (R31, R205, R334). -/
structure Engine where
  holder : BitVec 3 := 7
  cfg : Option W64 := none
  busy : Bool := false
  saffron : List (Tag × Byte) := []
  outLdsc : Nat := 0
  sqd : W32 := 0
  mp : SMap (Face W64) := []
  store : SMap W32 := []
  rtab : SMap (BitVec 16) := []
  run : Option Routine := none
  /-- MPSW writes held while Busy: table entry or word, index, value (R209). -/
  mpsw : List (Bool × Nat × W32) := []
  lines : List CycleLine := []
  idle : Nat := 0
  deriving DecidableEq, Repr

/-- A shape record as a CPY reads it (R170). -/
structure ShapeRec where
  base : W64
  dim0 : Nat
  dim1 : Nat
  dim2 : Nat
  str1 : W64
  str2 : W64
  tile : W64
  ext0 : Nat
  ext1 : Nat
  ext2 : Nat
  ctrl : W64
  deriving DecidableEq, Repr

/-- An element of a block transfer that has not performed (R263): its chunk, scratch address, main address, bytes, and its
value once read. -/
structure CopyEl where
  chunk : Nat
  loc : Nat
  va : W64
  n : Nat
  got : Option (List Byte) := none
  deriving DecidableEq, Repr

/-- A decoded copy's place in its stream (R177, R253): once its index entry is read, the address of the next aligned word to
read and the bits of that word before the stream; the bits read and not yet decoded. -/
structure DecodeRun where
  next : Option Nat := none
  skip : Nat := 0
  pend : List Bool := []
  deriving DecidableEq, Repr

/-- A block transfer in the buffer (R173). -/
structure CopyCmd where
  ctx : Nat
  pc : W64
  sclk : W64
  s : Nat
  b : Nat
  first : Nat
  dir : Bool
  t : Nat
  shape : ShapeRec
  recAddr : Nat
  checked : Bool
  /-- The core cycle from which its accesses may perform (R266). -/
  ready : Nat := 0
  begun : Bool := false
  /-- Chunks whose bits are still to be set, the elements still to perform, and the decoder. -/
  chunks : List Nat := []
  els : List CopyEl := []
  dec : DecodeRun := {}
  /-- Bytes moved so far (R346). -/
  moved : Nat := 0
  /-- A boundary that failed before it began: its elements that cross it are not specified (R355). -/
  cut : Option (BitVec 2) := none
  deriving DecidableEq, Repr

/-- A stream of a channel (R178). -/
structure Stream where
  ctx : Nat
  pc : W64
  s : Nat
  len : Nat
  va : W64
  pos : Nat := 0
  ready : Nat := 0
  /-- The 8-byte words read and not yet delivered, by index (R263). -/
  words : SMap W64 := []
  deriving DecidableEq, Repr

/-- A CATOM in progress (R181). -/
structure CatomCmd where
  ctx : Nat
  pc : W64
  sclk : W64
  add : W64
  va : W64
  due : Nat
  ready : Nat := 0
  /-- Its phase has ended, or its handler entry (R181). -/
  old : Bool := false
  deriving DecidableEq, Repr

/-- The copy engine (R169). -/
structure CopyEngine where
  buf : List CopyCmd := []
  ch0 : List Stream := []
  ch1 : List Stream := []
  wp0 : W64 := 0
  wp1 : W64 := 0
  /-- Decode tables: the 256 code lengths of each loaded table (R177, R252). -/
  tables : SMap (List Nat) := []
  catoms : List CatomCmd := []
  deriving DecidableEq, Repr

/-- A write in a core's scratch: address, length, the bytes masked off, writer code 0, 2 or 3, writing context, and whether it
is on another core (R165, R329). -/
structure ScrWrite where
  addr : Nat
  len : Nat
  code : Nat
  ctx : Nat
  far : Bool := false
  off : List Nat := []
  deriving DecidableEq, Repr

/-- A value watchpoint (R164, R165); hits: by context, a hit held for an owner until it is delivered, which a WPSET leaves. -/
structure Watchpoint where
  owner : Nat := 0
  mode : Nat := 0
  w : Nat := 0
  v : W64 := 0
  k : W64 := 0
  hits : BitVec 5 := 0
  deriving DecidableEq, Repr

/-- The governor's states (R349). -/
inductive GovState where
  | none | pressure | skip
  deriving DecidableEq, Repr

/-- The operating point and the governor of a core (R240 to R243, R349). -/
structure Power where
  op : Nat := 6
  req : Nat := 6
  ceiling : Nat := 6
  /-- The planner's assignment, before a thermal limit (R348). -/
  planned : Nat := 6
  /-- The open window: end point, and the PCC at which it closes. -/
  window : Option (Nat × Nat) := none
  /-- The last request of a communication step, taken at its end (R242). -/
  deferred : Option Nat := none
  gov : GovState := .none
  skip : Nat := 0
  /-- Evaluations since PRESSURE was entered, and consecutive ones at or below 0.9 C. -/
  evals : Nat := 0
  calm : Nat := 0
  cap : Nat := 0
  /-- Boost allowance in mW and the clock-phase accumulator in tenths of a GHz (assumption 2). -/
  pb : Nat := 0
  clk : Nat := 0
  /-- Core cycles, skipped ones included, modulo 8 (R349). -/
  phase : Nat := 0
  deriving DecidableEq, Repr

/-- A boost lease (R183, R350): holder, remaining and granted PCC cycles, its debit. -/
structure Lease where
  ctx : Nat
  left : Nat
  granted : Nat
  debit : Nat
  deriving DecidableEq, Repr

/-- The rows of a core: survival depths, mapping, Larder ownership and erring words (R27 to R30, R32, R235 to R250). -/
structure Rows where
  /-- Depths that differ from the part's initial survival map (assumption 7). -/
  depth : SMap Nat := []
  ldepth : SMap Nat := []
  gen : W32 := 0
  remap : SMap (BitVec 16) := []
  lmap : SMap (BitVec 8) := []
  owner : SMap Byte := []
  floor : Nat := 0
  evacPend : Bool := false
  /-- FLOOR before the demotion that made the evacuation pending (R247). -/
  evacFrom : Nat := 0
  ppw : W32 := 0
  /-- Erring words: 32 * physical row + word, or 2^20 + 2048 * physical slot + 32 * row + word; uncorrectable or not. -/
  errs : SMap Bool := []
  /-- A firmware evacuation in progress: its point, and the core cycle of its end (R247). -/
  fwEvac : Option (Nat × Nat) := none
  /-- Rows reported for in-field test: physical pool row, or 0x10000 + 64 * slot + Larder row (R61, R250). -/
  reports : List Nat := []
  deriving DecidableEq, Repr

/-- The handler's service (R34, R318): the served context, and the current entry. -/
structure Service where
  served : Option Nat := none
  entry : Entry := {}
  deriving DecidableEq, Repr

/-- Trace and samples of a core (R329 to R332). -/
structure Trace where
  ring : SMap W64 := []
  widx : W32 := 0
  /-- Records of the core cycle in progress: type, slot or watchpoint, record (R329). -/
  pend : List (Nat × Nat × W64) := []
  sbctl : W64 := 0
  unrec : Nat := 0
  lostPend : Nat := 0
  seq : W32 := 0
  deriving DecidableEq, Repr

/-- A context's stop in the core cycle in progress (R59, R321): its particulars, its state at the stop, its deferred events,
and the handler where its error stopped it (R319). -/
structure StopMark where
  ctx : Nat
  infos : List StopInfo
  snap : Ctx
  events : W64
  handler : Option (Ctx × Service) := none
  deriving DecidableEq, Repr

/-- A compute core. -/
structure Core where
  cyc : Nat := 0
  ctxs : SMap Ctx := []
  issuing : Option Nat := none
  svc : Service := {}
  scratch : Memory := []
  larder : Memory := []
  accs : List Access := []
  me0 : Engine := {}
  me1 : Engine := {}
  ce : CopyEngine := {}
  wps : SMap Watchpoint := []
  pwr : Power := {}
  lease : Option Lease := none
  rows : Rows := {}
  tr : Trace := {}
  /-- The launch holding the core: partition and tag. -/
  launch : Option (Nat × W32) := none
  /-- The core issues nothing before this core cycle, and its pool and Larder are held: captures, firmware evacuation, EVAC. -/
  hold : Nat := 0
  /-- The core issues nothing before this core cycle: the exchange of a CLAIM (R196). -/
  stall : Nat := 0
  /-- The PCC of the last core cycle, removed ones apart (R129). -/
  last : Nat := 0
  /-- Event counts of the Fuelo meter by class (R346), in femtojoules charged so far. -/
  energy : Nat := 0
  /-- Issue sequence of triggers on the core. -/
  seq : Nat := 0
  /-- The stops of the core cycle in progress, whose capture is made at its end (R325). -/
  marks : List StopMark := []
  /-- The scratch at the beginning of the cycle and the cycle's writes, which the watchpoints compare at its end (R165). -/
  before : Memory := []
  writes : List ScrWrite := []
  deriving DecidableEq, Repr, Inhabited

/-- The kinds of a relocation (R226): the patched items of the first three are data words, those of the others code words. -/
inductive RelocKind where
  | code64 | vaddr64 | core10 | live24 | group8
  deriving DecidableEq, Repr

/-- A relocation entry of an object (R226): the item's offset in its section, the kind, the section index, the symbol index. -/
structure Reloc where
  off : Nat
  kind : RelocKind
  sect : Nat
  sym : Option Nat
  deriving DecidableEq, Repr

/-- What a launch's object gives the loader beside the launch record (R223, R225, R226, R290): the bytes of its relocation table, the
indices of its code and data sections, the virtual addresses of the symbols that are main-memory data, by symbol index, its live-list
table's base index, and the bounds of its loops, each at the code address of its LOOP or backward branch. -/
structure Obj where
  table : List Byte := []
  codeSec : Nat := 0
  dataSec : Nat := 1
  syms : SMap W64 := []
  liveBase : BitVec 24 := 0
  trips : List (W64 × Nat) := []
  deriving DecidableEq, Repr

/-- A launch record's fields (R284). -/
structure LaunchRec where
  addr : W64 := 0
  raw : List Byte := []
  entry : W64 := 0
  ppw : W32 := 0
  ctrl : W32 := 0
  code : W64 := 0
  gtab : W64 := 0
  micro : W64 := 0
  live : W64 := 0
  nlive : W32 := 0
  tiles : W64 := 0
  data : W64 := 0
  dlen : W32 := 0
  cset : W64 := 0
  prereq : List W32 := []
  resume : W64 := 0
  notify : W64 := 0
  argS : List W32 := []
  argA : List W64 := []
  save : W64 := 0
  deriving DecidableEq, Repr

/-- Where a launch stands. -/
inductive LaunchStatus where
  | queued | placed | saved
  deriving DecidableEq, Repr

/-- A barrier episode of a group (R296, R297): arrived members (logical core, context), each with its step length. -/
structure Episode where
  arrived : List ((Nat × Nat) × Nat) := []
  deriving DecidableEq, Repr

/-- An NTREQ on its way or waiting for its answer (R301): core, context, register, issuing sc, PCC of arrival. -/
structure NtReq where
  core : Nat
  ctx : Nat
  reg : Nat
  sclk : W64
  arrive : Nat
  /-- The core cycle of its landing (R40), and the answer once served. -/
  due : Nat
  answer : Option W64 := none
  deriving DecidableEq, Repr

/-- A launch (R284 to R308). -/
structure Launch where
  tag : W32
  part : Nat
  pri : Nat := 0
  lr : LaunchRec := {}
  hart : Nat := 0
  pid : BitVec 24 := 0
  tid : BitVec 24 := 0
  status : LaunchStatus := .queued
  /-- Physical core of each logical core. -/
  cores : List Nat := []
  /-- (group, logical core, context). -/
  groups : List (Nat × Nat × Nat) := []
  lives : List W256 := []
  resume : W256 := 0
  episodes : SMap Episode := []
  /-- Next and end index of each die's dispenser (R300). -/
  disp : SMap (Nat × Nat) := []
  ntq : List NtReq := []
  widx : W64 := 0
  drops : Nat := 0
  /-- The communication step in progress: release and end PCC (R299). -/
  step : Option (Nat × Nat) := none
  preempt : Bool := false
  cancel : Bool := false
  /-- The physical address its save goes to in a quiesce (R353). -/
  area : Option Nat := none
  sawFatal : Bool := false
  sawCapacity : Bool := false
  sawLink : Bool := false
  saveP : Nat := 0
  saved : List Core := []
  /-- The object's relocations and trip bounds, and the code image's base code address (R226, R290, R292). -/
  obj : Obj := {}
  codeBase : W64 := 0
  /-- Its cores that have lost capacity (R309). -/
  lost : List Nat := []
  deriving DecidableEq, Repr

/-- A completion: tag, status, PCC (R288). -/
structure Completion where
  tag : W32
  status : Nat
  pcc : Nat
  hart : Nat
  deriving DecidableEq, Repr

/-- The partition record (R337). -/
structure PartRec where
  virt : Bool := false
  vf : W32 := 0
  cores : BitVec 576 := 0
  harts : W64 := 0
  ranges : List (Nat × Nat) := []
  netsh : Nat := 0
  stosh : Nat := 0
  occbud : W64 := 0
  powcap : W32 := 0
  safeb : W32 := 0
  deriving DecidableEq, Repr

/-- The Cellar's registers (R324); dumps captured and not written. -/
structure Cellar where
  base : W64 := 0
  widx : W32 := 0
  lost : W32 := 0
  ridx : W32 := 0
  tenkey : SMap W64 := []
  audkey : SMap W64 := []
  keyctl : W64 := 0
  deriving DecidableEq, Repr

/-- The dirty log (R354): DLOGBASE, EN, BUSY and ACTIVE. -/
structure DirtyLog where
  base : W64 := 0
  en : Bool := false
  busy : Bool := false
  active : Bool := false
  /-- SNAP written in this cycle: the other bitmap is active from the next (R354). -/
  snap : Bool := false
  deriving DecidableEq, Repr

/-- What the device completes a host's read with, or its refusal (R361): data, Unsupported Request, or malformed. -/
inductive HostReply where
  | data (l : List Byte)
  | unsupported
  | malformed
  deriving DecidableEq, Repr

/-- A partition. -/
structure Partition where
  pr : PartRec := {}
  resetting : Bool := false
  quiesced : Bool := false
  lqcpl : W64 := 0
  lqcplrd : W64 := 0
  /-- Completions written and read so far, those held for room, and the last 256 (R288, R289). -/
  cplCount : Nat := 0
  cplRead : Nat := 0
  cplHeld : List Completion := []
  cplLast : List (W32 × Nat) := []
  hcode : W64 := 0
  hentry : W64 := 0
  cel : Cellar := {}
  facc : SMap W64 := []
  flockErr : Bool := false
  flock : Bool := false
  llbase : W64 := 0
  llidx : W32 := 0
  perrbase : W64 := 0
  perridx : W32 := 0
  /-- Recorded kernel writes: register (1: TXINV) and value (R340, R341). -/
  gtxw : List (Bool × W64) := []
  occuse : Nat := 0
  occlast : Nat := 0
  bg : Bool := false
  /-- The PCC of the charge that set BG, which acts from the next cycle on (R345). -/
  bgAt : Nat := 0
  penergy : Nat := 0
  pool : Int := 0
  cntchg : W64 := 0
  dlog : DirtyLog := {}
  mbxbase : W64 := 0
  kick : W32 := 0
  mbxstat : W64 := 0
  prqSeq : W32 := 0
  /-- The last values written to LQPUSH and LQCANCEL (R287). -/
  lqpush : W64 := 0
  lqcancel : W64 := 0
  /-- The objects its software has given the loader, by the address of the launch record they belong to (R226, R290). -/
  objs : SMap Obj := []
  /-- Its function's MSI-X table by byte, and pending bits (R362). -/
  msix : SMap Byte := []
  pba : W32 := 0
  deriving DecidableEq, Repr

/-- A shared-unit counter: value, event, UNAV, enable (R335, R352). -/
structure Counter where
  val : W64 := 0
  event : BitVec 16 := 0
  unav : Bool := false
  en : Bool := false
  deriving DecidableEq, Repr

/-- An entry of a watch filter (R260). -/
structure WatchEntry where
  page : W64 := 0
  asid : BitVec 16 := 0
  rd : Bool := false
  wr : Bool := false
  mask : W64 := 0
  deriving DecidableEq, Repr

/-- A partition's translation block on a die, with its watch filter and counters (R255, R260, R335). -/
structure TxBlock where
  txatp : W64 := 0
  /-- The kernel's last writes, read back under VIRT (R340). -/
  katp : W64 := 0
  kinv : W64 := 0
  txinv : W64 := 0
  busy : Bool := false
  prqbase : W64 := 0
  prqresp : W64 := 0
  watchbase : W64 := 0
  watchIdx : Nat := 0
  watchLost : Nat := 0
  filter : SMap WatchEntry := []
  counters : SMap Counter := []
  deriving DecidableEq, Repr

/-- An outstanding page request (R258, R259). pool: 0 share, 1 overflow, 2 reserve. -/
structure PageReq where
  part : Nat
  asid : BitVec 16
  page : W64
  write : Bool
  pool : Nat
  deriving DecidableEq, Repr

/-- An interrupt raised: an MSI to a hart's IMSIC, a vector of a VF, or a vector of PF0 (R342, R363). -/
inductive Irq where
  | hart (h : Nat) (kind : Nat) (data : Nat)
  | vf (part : Nat) (vec : Nat)
  | pf0 (vec : Nat)
  deriving DecidableEq, Repr

/-- A queue pair's standing (R369, R370): the partition and the service the hypervisor has assigned it, no partition before it does, error state, how its last
work request completed (0 done, 1 TRANSLATION, 2 refused), the RNR NAKs it has sent and the packets it has dropped. -/
structure QueuePair where
  part : Option Nat := none
  ud : Bool := false
  err : Bool := false
  status : Nat := 0
  rnr : Nat := 0
  drops : Nat := 0
  deriving DecidableEq, Repr

/-- What a migration area holds (R353): its address, the partition's registers, its translation blocks, its launches, queued and
saved, and the sample-buffer registers of its cores in order. -/
structure AreaImage where
  base : Nat := 0
  p : Partition := {}
  tx : List TxBlock := []
  launches : List Launch := []
  samples : List Trace := []
  deriving DecidableEq, Repr, Inhabited

/-- A record of the device that waits for its channels (R345): of a partition and a die, bytes at physical addresses and the interrupts
that follow them; or a record of a core's sample buffer, with its type. -/
inductive Held where
  | put (part die : Nat) (pieces : List (Nat × List Byte)) (irqs : List Irq)
  | sample (part core type : Nat) (body : List Byte)
  deriving DecidableEq, Repr

/-- The package: command registers, host window, boundaries, boot, dies (R339, R346, R348, R368, R372, R375, R377). -/
structure Package where
  pcmd : W64 := 0
  pcmdgo : W64 := 0
  pcmdErr : Nat := 0
  pcmdBusy : Bool := false
  /-- The physical address of the command that runs, or ran last. -/
  cmdAddr : Nat := 0
  again : Bool := false
  stobind : SMap W64 := []
  hevbase : W64 := 0
  hevidx : W32 := 0
  hevlost : W32 := 0
  hevrd : W32 := 0
  pkgcap : Nat := 2550000
  gnM : Bool := false
  ovhenergy : Nat := 0
  link : SMap Nat := []
  stage : Nat := 0
  bootErr : Nat := 0
  /-- Stage 2 has failed: the compute cores are unavailable (R372). -/
  noCores : Bool := false
  measures : List W256 := []
  evidence : List Byte := []
  /-- Dies with ceilings held at OP4, and dies skipping 7 in 8 (R348). -/
  hot : SMap Bool := []
  veryHot : SMap Bool := []
  trip : Bool := false
  /-- The PCC from which the 10 ms of a module trip count (R377). -/
  tripAt : Nat := 0
  weights : SMap (BitVec 16) := []
  /-- The device's signature over the survival map since its first update (R237, R245). -/
  mapSig : Option (BitVec 26472) := none
  qps : SMap QueuePair := []
  /-- The requests of virtual functions that wait, and the words of posted writes that have not performed (R263, R274, R345). -/
  hostq : List (Cursor × HostAccess) := []
  /-- The device's records for partitions at background priority that wait for their channels, in order (R345). -/
  held : List Held := []
  /-- The last completion a virtual function gave the host (R361). -/
  reply : Option HostReply := none
  /-- The migration areas written, with their bytes (R353). -/
  areas : List (List Byte × AreaImage) := []
  deriving DecidableEq, Repr

/-- What is due at the present instant: an instruction at its place; the micro-operation an engine has reached; a core's
next core cycle; what its bundle leaves for the end of that cycle; the capture of its stops; the accesses of the copy engine and
of XFER entries, those of rank 1, then those of rank 5 (R158); a waiting request of a virtual function; the end of the PCC tick. -/
inductive Todo where
  | exec (cur : Cursor) (i : Instr)
  | micro (cur : Cursor)
  | cycle (core : Nat)
  | settle (core : Nat)
  | capture (core : Nat)
  | transfers (core : Nat) (late : Bool)
  | host (cur : Cursor) (a : HostAccess)
  | close
  deriving DecidableEq, Repr

/-- A port request that waits (R345, R370): for the answer to a page request it made or found, or, without a page, for an entry to
free or for its turn. -/
structure PortWait where
  cur : Cursor
  i : Instr
  page : Option W64
  write : Bool
  /-- It, or the one it follows, gives way to foreground requests and is tried again in the next PCC cycle (R345). -/
  gives : Bool := false
  deriving DecidableEq, Repr

/-- A dump captured and not yet written (R325, R326): the stopped context, the core and the launch at the capture, cause,
detail, other causes, PCC, code address and SCLK, deferred events, the issuing command's code address. -/
structure Dump where
  part : Nat
  core : Nat
  ctx : Nat
  snap : Core
  launch : Launch
  cause : Nat
  detail : W64
  others : W64
  pcc : Nat
  pc : W64
  sclk : W64
  events : W64
  cmdPc : W64
  due : Nat
  deriving DecidableEq, Repr

/-- The whole device. -/
structure State where
  pcc : Nat
  mem : Memory
  cores : SMap Core
  launches : List Launch
  parts : SMap Partition
  tx : SMap TxBlock
  prq : SMap PageReq
  waits : List PortWait
  pkg : Package
  jname : SMap W64
  dumps : List Dump
  irqs : List Irq
  todo : List Todo
  inbox : List (Nat × Todo)
  frame : Frame
  ctr : Nat
  deriving DecidableEq, Repr

/-- The machine after package cold reset (R35, R242): nothing placed, every core at OP6. -/
def State.reset : State :=
  { pcc := 0, mem := [], cores := [], launches := [], parts := [], tx := [], prq := [], waits := [], pkg := {}, jname := [],
    dumps := [], irqs := [], todo := [], inbox := [], frame := {}, ctr := 0 }

/-- Why the machine stops: never. Every error the spec names stops a context or ends a command with a status, and the
device goes on. -/
inductive Fault where
  deriving DecidableEq, Repr

/-- Why a step has no meaning in the model. -/
inductive Refusal where
  /-- The instruction of this mnemonic has no meaning yet: safe. -/
  | notModelled (mnemonic : String)
  deriving DecidableEq, Repr

end Sys2Proof.Machine
end

