-- ==== Sys2Proof/Machine/Ops.lean ====
section
/-!
DEFINITION. The named operations over the state: access to cores, contexts, launches and partitions; free choices; the
hidden-face write; results in flight; fatal errors; the Garret ring; energy.
-/
namespace Sys2Proof.Machine

/-! ## Access -/

/-- The core numbered n. -/
def State.coreAt (s : State) (n : Nat) : Core := SMap.get {} s.cores n
/-- The state with a core replaced. -/
def State.setCoreAt (s : State) (n : Nat) (k : Core) : State := { s with cores := s.cores.put n k }
/-- The cursor's core. -/
def State.core (s : State) : Core := s.coreAt s.frame.cur.core
/-- The state with the cursor's core replaced. -/
def State.setCore (s : State) (k : Core) : State := s.setCoreAt s.frame.cur.core k
/-- A context of a core: 0 to 3 user contexts, 4 the handler (R8). -/
def Core.ctx (k : Core) (c : Nat) : Ctx := SMap.get {} k.ctxs c
def Core.setCtx (k : Core) (c : Nat) (x : Ctx) : Core := { k with ctxs := k.ctxs.put c x }
/-- The cursor's context. -/
def State.ctx (s : State) : Ctx := s.core.ctx s.frame.cur.ctx
def State.setCtx (s : State) (x : Ctx) : State := s.setCore (s.core.setCtx s.frame.cur.ctx x)
/-- The cursor's context's rolled-back state. -/
def State.arch (s : State) : CtxArch := s.ctx.cur
def State.setArch (s : State) (a : CtxArch) : State := s.setCtx { s.ctx with cur := a }
/-- The state with the frame replaced. -/
def State.setFrame (s : State) (f : Frame) : State := { s with frame := f }

/-- The engine e of a core. -/
def Core.eng (k : Core) (e : Bool) : Engine := if e then k.me1 else k.me0
def Core.setEng (k : Core) (e : Bool) (x : Engine) : Core := if e then { k with me1 := x } else { k with me0 := x }

/-- The handler context's number (R8). -/
abbrev handlerCtx : Nat := 4
/-- Whether the cursor is at the handler context. -/
def State.inHandler (s : State) : Bool := s.frame.cur.ctx == handlerCtx

/-- The partition numbered p. -/
def State.part (s : State) (p : Nat) : Partition := SMap.get {} s.parts p
def State.setPart (s : State) (p : Nat) (x : Partition) : State := { s with parts := s.parts.put p x }
/-- The translation block of a partition on a die (R255). -/
def State.txAt (s : State) (p die : Nat) : TxBlock := SMap.get {} s.tx (3 * p + die)
def State.setTx (s : State) (p die : Nat) (x : TxBlock) : State := { s with tx := s.tx.put (3 * p + die) x }

/-- The die of a core (R2: 192 cores a die). -/
def dieOf (core : Nat) : Nat := core / 192

/-- The launch of a partition and tag. -/
def findLaunch (ls : List Launch) (part : Nat) (tag : W32) : Option Launch :=
  ls.find? fun l => l.part == part && l.tag == tag
/-- The launch list with one launch changed. -/
def modLaunch (ls : List Launch) (part : Nat) (tag : W32) (f : Launch → Launch) : List Launch :=
  ls.map fun l => if l.part == part && l.tag == tag then f l else l
/-- The launch holding a core. -/
def State.launchAt (s : State) (core : Nat) : Option Launch :=
  match (s.coreAt core).launch with
  | some (p, t) => findLaunch s.launches p t
  | none => none
/-- The launch of the cursor's core. -/
def State.launch (s : State) : Option Launch := s.launchAt s.frame.cur.core
/-- The state with the launch holding a core changed. -/
def State.modLaunchAt (s : State) (core : Nat) (f : Launch → Launch) : State :=
  match (s.coreAt core).launch with
  | some (p, t) => { s with launches := modLaunch s.launches p t f }
  | none => s
/-- The partition whose launch holds a core; 0 where none does. -/
def State.partOfCore (s : State) (core : Nat) : Nat :=
  match (s.coreAt core).launch with
  | some (p, _) => p
  | none => 0

/-- The logical core of a physical core in a launch. -/
def Launch.logical (l : Launch) (core : Nat) : Nat := l.cores.idxOf core
/-- User contexts per core of a launch (R9, R285). -/
def Launch.nctx (l : Launch) : Nat := (l.lr.ctrl.extractLsb' 2 2).toNat + 1

/-- The next free choice's number; the counter advances. -/
def State.draw (s : State) : Nat × State := (s.ctr, { s with ctr := s.ctr + 1 })

/-- An outside answer or a due step put in the inbox, to come up at a PCC tick. -/
def State.later (s : State) (pcc : Nat) (cur : Cursor) (i : Instr) : State :=
  { s with inbox := s.inbox ++ [(pcc, .exec cur i)] }

/-- An interrupt raised (R342, R363). -/
def State.raiseIrq (s : State) (q : Irq) : State := { s with irqs := s.irqs ++ [q] }
/-- The lowest-numbered hart of a partition (R342). -/
def Partition.lowHart (p : Partition) : Nat :=
  ((List.range 48).find? fun h => p.pr.harts.getLsbD h).getD 0

/-! ## The pool partition word (R27, R28) -/

def ppwFop (w : W32) : Nat := (w.extractLsb' 26 3).toNat
def ppwScr (w : W32) : Nat := (w.extractLsb' 15 11).toNat
def ppwAcc (w : W32) : Nat := (w.extractLsb' 7 8).toNat
def ppwReg (w : W32) : Nat := (w.extractLsb' 0 7).toNat
/-- Bytes of the scratch (R28). -/
def Core.scratchSize (k : Core) : Nat := 2048 * ppwScr k.rows.ppw
/-- Accumulator tiles of each user context (R28). -/
def accTiles (ppw : W32) (n : Nat) : Nat := min 16 (8 * ppwAcc ppw / (128 * n))
/-- Accumulator tiles of a context of the cursor's core; none without a launch. -/
def State.tiles (s : State) : Nat :=
  match s.launch with
  | some l => accTiles s.core.rows.ppw l.nctx
  | none => 0

/-! ## Fatal errors (R320) -/

abbrev Err.illegalBundle : Nat := 0x01
abbrev Err.branchTarget : Nat := 0x02
abbrev Err.codeIntegrity : Nat := 0x03
abbrev Err.codeTranslation : Nat := 0x04
abbrev Err.metadataTranslation : Nat := 0x05
abbrev Err.operatingPoint : Nat := 0x06
abbrev Err.timing : Nat := 0x07
abbrev Err.tagMismatch : Nat := 0x08
abbrev Err.loopState : Nat := 0x09
abbrev Err.group : Nat := 0x0A
abbrev Err.scratchBounds : Nat := 0x0B
abbrev Err.alignment : Nat := 0x0C
abbrev Err.operand : Nat := 0x0D
abbrev Err.engineHolder : Nat := 0x0E
abbrev Err.engineConfig : Nat := 0x0F
abbrev Err.engineBusy : Nat := 0x10
abbrev Err.larder : Nat := 0x11
abbrev Err.microprogram : Nat := 0x12
abbrev Err.sparsity : Nat := 0x13
abbrev Err.queueImbalance : Nat := 0x14
abbrev Err.saffronOverflow : Nat := 0x15
abbrev Err.shapeBounds : Nat := 0x16
abbrev Err.copyQueue : Nat := 0x17
abbrev Err.streamQueue : Nat := 0x18
abbrev Err.copyTranslation : Nat := 0x19
abbrev Err.commStep : Nat := 0x1A
abbrev Err.liveList : Nat := 0x1B
abbrev Err.dataLoss : Nat := 0x1C
abbrev Err.capacityLost : Nat := 0x1D
abbrev Err.handlerKill : Nat := 0x1E
abbrev Err.reservedEret : Nat := 0x1F
abbrev Err.handlerFault : Nat := 0x20
abbrev Err.launchCancelled : Nat := 0x21
abbrev Err.saveFailed : Nat := 0x22

/-- A fatal error raised by the bundle in progress; its stop is made when the bundle's checks are done (R59, R321). -/
def State.raise (s : State) (code : Nat) (detail : W64) : State :=
  { s with frame := { s.frame with raised := s.frame.raised ++ [(code, detail)] } }
/-- A fatal error whose detail is the slot number (R320). -/
def State.raiseSlot (s : State) (code : Nat) : State := s.raise code (BitVec.ofNat 64 s.frame.cur.slot)

/-! ## The Garret ring (R329) -/

/-- A record with a payload, at the state's PCC. -/
def ringRecord (pcc : Nat) (ctx type : Nat) (payload : Nat) : W64 :=
  BitVec.ofNat 40 payload ++ (BitVec.ofNat 16 (pcc / 16) ++ (0#1 ++ (BitVec.ofNat 3 ctx ++ BitVec.ofNat 4 type)))
/-- A record of the cycle in progress on a core. -/
def Core.trace (k : Core) (pcc ctx type idx payload : Nat) : Core :=
  { k with tr := { k.tr with pend := k.tr.pend ++ [(type, idx, ringRecord pcc ctx type payload)] } }
/-- A record of the cursor's context and slot. -/
def State.trace (s : State) (type payload : Nat) : State :=
  s.setCore (s.core.trace s.pcc s.frame.cur.ctx type s.frame.cur.slot payload)

/-- The records of a core's cycle written in increasing type, then index. -/
def Core.flush (k : Core) : Core :=
  if k.tr.pend.isEmpty then k
  else
    let l := sortBy (fun a b => decide (a.1 < b.1 ∨ (a.1 = b.1 ∧ a.2.1 ≤ b.2.1))) k.tr.pend
    let r := l.foldl (fun (r : SMap W64 × W32) x => (r.1.put (r.2.toNat % 512) x.2.2, r.2 + 1)) (k.tr.ring, k.tr.widx)
    { k with tr := { k.tr with ring := r.1, widx := r.2, pend := [] } }

/-! ## Energy (R346) -/

/-- The energy of n events of a class on a core, at the operating point in force. -/
def State.charge (s : State) (core cls n : Nat) : State :=
  let k := s.coreAt core
  let e := n * (SMap.get (0 : BitVec 16) s.pkg.weights (16 * k.pwr.op + cls)).toNat
  match k.launch with
  | some (p, _) =>
    let q := s.part p
    s.setPart p { q with penergy := q.penergy + e }
  | none => { s with pkg := { s.pkg with ovhenergy := s.pkg.ovhenergy + e } }
/-- The energy of n events of a class on the cursor's core. -/
def State.chargeHere (s : State) (cls n : Nat) : State := s.charge s.frame.cur.core cls n

/-! ## Hidden-face writes (R16, R40, R43, R44) -/

/-- A write landing on a register: the hidden face takes the value and the written bit is set (R16). -/
def Face.land {α : Type} (f : Face α) (v : α) : Face α := { f with hid := v, wr := true }
/-- The exchange at a flip: only a written register's faces swap (R41). -/
def Face.flip {α : Type} (f : Face α) : Face α :=
  if f.wr then { vis := f.hid, hid := f.vis, wr := false, sw := !f.sw } else f
/-- The DW flag a landing on a written register raises (R44). -/
def dwOf (wr : Bool) : Flags := if wr then Flags.dw else 0

/-- FLG with flags raised into the phase accumulator (R20). -/
def FlgReg.raise (f : FlgReg) (fl : Flags) : FlgReg := { f with acc := f.acc ||| fl }

def RegFile.getS (r : RegFile) (n : Nat) : Face W32 := SMap.get { vis := 0, hid := 0 } r.s n
def RegFile.getA (r : RegFile) (n : Nat) : Face W64 := SMap.get { vis := 0, hid := 0 } r.a n
def RegFile.getV (r : RegFile) (n : Nat) : Face TVal := SMap.get { vis := {}, hid := {} } r.v n
/-- p0 reads 1 on both faces (R12). -/
def RegFile.getP (r : RegFile) (n : Nat) : Face Bool :=
  if n = 0 then { vis := true, hid := true } else SMap.get { vis := false, hid := false } r.p n
def RegFile.getM (r : RegFile) (n : Nat) : Face W256 := SMap.get { vis := 0, hid := 0 } r.m n
def RegFile.getNt (r : RegFile) (n : Nat) : Face W64 := SMap.get { vis := 0, hid := 0 } r.nt n
def RegFile.getAm (r : RegFile) (n : Nat) : Face W32 := SMap.get { vis := 0, hid := 0 } r.am n
def RegFile.getAcc (r : RegFile) (n : Nat) : Face TileVal := SMap.get { vis := {}, hid := {} } r.acc n
/-- A group register; an unused one reads 0xFF (R35). -/
def RegFile.getGrp (r : RegFile) (n : Nat) : Byte := SMap.get 0xFF r.grp n

def RegFile.dw (r : RegFile) (wr : Bool) : RegFile := { r with flg := r.flg.raise (dwOf wr) }

def RegFile.landS (r : RegFile) (n : Nat) (v : W32) : RegFile :=
  { r.dw (r.getS n).wr with s := r.s.put n ((r.getS n).land v) }
def RegFile.landA (r : RegFile) (n : Nat) (v : W64) : RegFile :=
  { r.dw (r.getA n).wr with a := r.a.put n ((r.getA n).land v) }
def RegFile.landV (r : RegFile) (n : Nat) (v : TVal) : RegFile :=
  { r.dw (r.getV n).wr with v := r.v.put n ((r.getV n).land v) }
/-- A write to p0 is discarded (R12). -/
def RegFile.landP (r : RegFile) (n : Nat) (v : Bool) : RegFile :=
  if n = 0 then r else { r.dw (r.getP n).wr with p := r.p.put n ((r.getP n).land v) }
def RegFile.landM (r : RegFile) (n : Nat) (v : W256) : RegFile :=
  { r.dw (r.getM n).wr with m := r.m.put n ((r.getM n).land v) }
/-- A next-tile register stores bits [63] and [47:0] only (R14). -/
def ntMask (v : W64) : W64 := v &&& 0x8000FFFFFFFFFFFF
def RegFile.landNt (r : RegFile) (n : Nat) (v : W64) : RegFile :=
  { r.dw (r.getNt n).wr with nt := r.nt.put n ((r.getNt n).land (ntMask v)) }
/-- A moved am value: the magnitude, NaNs as infinity (R15). -/
def amClamp (v : W32) : W32 := if 0x7F800000 < (v &&& 0x7FFFFFFF) then 0x7F800000 else v &&& 0x7FFFFFFF
def RegFile.landAm (r : RegFile) (n : Nat) (v : W32) : RegFile :=
  { r.dw (r.getAm n).wr with am := r.am.put n ((r.getAm n).land (amClamp v)) }
def RegFile.landAcc (r : RegFile) (n : Nat) (v : TileVal) : RegFile :=
  { r.dw (r.getAcc n).wr with acc := r.acc.put n ((r.getAcc n).land v) }
/-- A write to FLG adds to the clear mask and never raises DW (R20). -/
def RegFile.clearFlg (r : RegFile) (v : W32) : RegFile :=
  { r with flg := { r.flg with clr := r.flg.clr ||| v, wr := true } }

/-- The cursor's context's registers changed. -/
def State.modRegs (s : State) (f : RegFile → RegFile) : State :=
  s.setArch { s.arch with regs := f s.arch.regs }

/-- The sub-bundle of a slot in a split by k (R54). -/
def subOf (k j : Nat) : Nat := j * k / 8

/-! ## Results in flight (R45, R46) -/

/-- A result due at a port L schedule cycles after the bundle in progress. -/
def State.pushResult (s : State) (port lat : Nat) (v : TVal) (fl : Flags) : State :=
  let k := s.core
  let x := k.ctx s.frame.cur.ctx
  let r : InFlight := { seq := k.seq, port := port, due := x.cur.sclk + BitVec.ofNat 64 lat, res := v, flags := fl }
  s.setCore ({ k with seq := k.seq + 1 }.setCtx s.frame.cur.ctx { x with cur := { x.cur with pipe := x.cur.pipe ++ [r] } })

/-- The held value of a result port (R21). -/
def CtxArch.port (a : CtxArch) (id : Nat) : TVal := SMap.get {} a.ports id

/-- An operation that forbids a rollback of the phase has issued (R60). -/
def State.noRoll (s : State) : State := s.setCtx { s.ctx with noRoll := true }

/-- A context's phase has ended: its CATOMs are of an earlier one (R181). -/
def CopyEngine.endPhase (e : CopyEngine) (c : Nat) : CopyEngine :=
  { e with catoms := e.catoms.map fun m => if m.ctx = c then { m with old := true } else m }

/-- An access queued at a core cycle (R157). -/
def State.queueAccess (s : State) (due : Nat) (kind : AccessKind) : State :=
  let k := s.core
  s.setCore { k with accs := k.accs ++ [{ due := due, ctx := s.frame.cur.ctx, slot := s.frame.cur.slot,
                                          pc := s.frame.pc, sclk := s.arch.sclk, kind := kind }] }

end Sys2Proof.Machine
end

