-- ==== Sys2Proof/Machine/Mem.lean ====
section
/-!
DEFINITION. Main memory as the device's agents reach it: physical accesses with the dirty log (R354), Sv48 translation
(R254, R255), watched pages (R260), and virtual accesses page by page.
-/
namespace Sys2Proof.Machine

/-! ## Physical memory -/

/-- Whether a physical address lies in a partition's RANGES (R337). -/
def PartRec.holds (r : PartRec) (pa : Nat) : Bool := r.ranges.any fun x => decide (x.1 ≤ pa) && decide (pa < x.2)
/-- Bytes of a partition's RANGES. -/
def PartRec.total (r : PartRec) : Nat := r.ranges.foldl (fun a x => a + (x.2 - x.1)) 0
/-- The offset of a physical address in the RANGES taken in order. -/
def rangeOffset (l : List (Nat × Nat)) (pa : Nat) : Option Nat :=
  match l with
  | [] => none
  | (b, e) :: r =>
    if b ≤ pa ∧ pa < e then some (pa - b) else (rangeOffset r pa).map fun o => o + (e - b)
/-- The physical address at an offset of the RANGES taken in order (R361). -/
def rangeAt (l : List (Nat × Nat)) (off : Nat) : Option Nat :=
  match l with
  | [] => none
  | (b, e) :: r => if off < e - b then some (b + off) else rangeAt r (off - (e - b))

/-- Bytes of one dirty bitmap: one bit for each 64 KiB page of the RANGES (R354). -/
def PartRec.bitmapBytes (r : PartRec) : Nat := (r.total / 65536 + 7) / 8

/-- The dirty bit of a write of a partition's memory, set in the active bitmap (R354). The second bitmap follows the
first (assumption 19). -/
def dirtyMark (m : Memory) (p : Partition) (pa : Nat) : Memory :=
  if p.dlog.en then
    match rangeOffset p.pr.ranges pa with
    | some off =>
      let page := off / 65536
      let a := p.dlog.base.toNat + (if p.dlog.active then p.pr.bitmapBytes else 0) + page / 8
      m.write a (m.read a ||| BitVec.ofNat 8 (2 ^ (page % 8)))
    | none => m
  else m

/-- One address in each 64 KiB page that n bytes from an address touch. -/
def touched (pa n : Nat) : List Nat :=
  if n = 0 then [] else (List.range ((n - 1) / 65536 + 1)).map (fun i => pa + 65536 * i) ++ [pa + n - 1]

/-- Contents that the spec leaves open: n bytes, drawn at a free choice. -/
def openBytes (draw n : Nat) : List Byte := (List.range n).map (Config.openByte draw)

/-- Bytes written at a physical address for a partition, with their dirty marks. Where the package's 576 GB lie in the physical
address space is not stated: every physical address is memory, DESIGN CHOICE, unsafe (assumption 64). -/
def State.physWrite (s : State) (part pa : Nat) (bs : List Byte) : State :=
  let p := s.part part
  { s with mem := (touched pa bs.length).foldl (fun m a => dirtyMark m p a) (s.mem.writeBytes pa bs) }

/-! ## Translation -/

/-- A translation's outcome: the physical address and the leaf's watch bit, a page that is not present, or one present
without the permission asked (R167, R254). -/
inductive Xlat where
  | ok (pa : Nat) (watched : Bool)
  | absent
  | denied
  deriving DecidableEq, Repr

/-- A canonical address: bits [63:48] equal bit 47 (R254). -/
def canonical (va : W64) : Bool := (va.extractLsb' 47 17 == 0) || (va.extractLsb' 47 17 == BitVec.allOnes 17)

/-- A leaf PTE at a level: permissions, A and D, alignment of its page number, Svnapot (R254). -/
def leafXlat (pte : W64) (level : Nat) (va : W64) (write : Bool) : Xlat :=
  let ppn := (pte.extractLsb' 10 44).toNat
  let off := va.toNat % 2 ^ (12 + 9 * level)
  let napot := pte.getLsbD 63
  if napot && (level != 0 || ppn % 16 != 8) then .absent
  else if ppn % 2 ^ (9 * level) ≠ 0 ∧ ¬napot then .absent
  else if !pte.getLsbD 4 || (if write then !pte.getLsbD 2 else !pte.getLsbD 1) then .denied
  else if !pte.getLsbD 6 || (write && !pte.getLsbD 7) then .absent
  else if napot then .ok ((ppn / 16 * 16) * 4096 + va.toNat % 65536) (pte.getLsbD 8)
  else .ok (ppn * 4096 + off) (pte.getLsbD 8)

/-- The PTE of a table page for an address at a level. -/
def pteAt (m : Memory) (ppn : Nat) (va : W64) (level : Nat) : W64 :=
  BitVec.ofNat 64 (m.readLe (ppn * 4096 + 8 * (va.extractLsb' (12 + 9 * level) 9).toNat) 8)
/-- A PTE that is no valid entry: V = 0, W without R, reserved or PBMT bits set (R254). -/
def pteBad (pte : W64) : Bool := !pte.getLsbD 0 || (!pte.getLsbD 1 && pte.getLsbD 2) || pte.extractLsb' 54 9 != 0
/-- A PTE that points to the next table. -/
def ptePointer (pte : W64) : Bool := !pte.getLsbD 1 && !pte.getLsbD 3
/-- A pointer with N, U, A or D set, which are reserved in it. -/
def pointerBad (pte : W64) : Bool := pte.getLsbD 63 || pte.getLsbD 4 || pte.getLsbD 6 || pte.getLsbD 7

/-- The walk from a table's page number at a level downward (R254). -/
def walk (m : Memory) (va : W64) (write : Bool) : Nat → Nat → Xlat
  | 0, ppn =>
    if pteBad (pteAt m ppn va 0) || ptePointer (pteAt m ppn va 0) then .absent
    else leafXlat (pteAt m ppn va 0) 0 va write
  | k + 1, ppn =>
    if pteBad (pteAt m ppn va (k + 1)) then .absent
    else if ptePointer (pteAt m ppn va (k + 1)) then
      if pointerBad (pteAt m ppn va (k + 1)) then .absent
      else walk m va write k ((pteAt m ppn va (k + 1)).extractLsb' 10 44).toNat
    else leafXlat (pteAt m ppn va (k + 1)) (k + 1) va write

/-- The translation of an address by a partition's block on a die (R254, R255); a page outside RANGES is denied. -/
def State.xlat (s : State) (part die : Nat) (va : W64) (write : Bool) : Xlat :=
  let b := s.txAt part die
  if b.txatp.extractLsb' 60 4 ≠ 9 ∨ ¬canonical va then .denied
  else
    match walk s.mem va write 3 (b.txatp.extractLsb' 0 44).toNat with
    | .ok pa w => if (s.part part).pr.holds pa then .ok pa w else .denied
    | x => x

/-- The ASID of a partition's block on a die (R255). -/
def State.asid (s : State) (part die : Nat) : BitVec 16 := (s.txAt part die).txatp.extractLsb' 44 16

/-! ## Watched pages (R260) -/

/-- Whether a partition has accepted a feature bit of FEAT0 (R351). -/
def Partition.accepts (p : Partition) (bit : Nat) : Bool := (SMap.get (0 : W64) p.facc 0).getLsbD bit

/-- Whether an access to a watched page hits the filter. -/
def watchHits (b : TxBlock) (va : W64) (len : Nat) (write : Bool) : Bool :=
  let page := va.toNat / 4096
  let asid := b.txatp.extractLsb' 44 16
  let m := b.filter.filter fun e => e.2.page.toNat / 4096 == page && e.2.asid == asid
  if m.isEmpty then write
  else m.any fun e => (if write then e.2.wr else e.2.rd) &&
    (List.range 64).any fun i => e.2.mask.getLsbD i && decide (64 * i < va.toNat % 4096 + len) &&
      decide (va.toNat % 4096 < 64 * i + 64)

/-! ## Virtual accesses -/

/-- A range cut at 4 KiB pages: address and length of each piece. -/
def pieces (va : W64) (n : Nat) : List (W64 × Nat) :=
  (List.range ((va.toNat % 4096 + n + 4095) / 4096)).map fun i =>
    let o := if i = 0 then 0 else 4096 * i - va.toNat % 4096
    (va + BitVec.ofNat 64 o, min (n - o) (if i = 0 then 4096 - va.toNat % 4096 else 4096))

/-- n bytes at a virtual address, or the first address that does not translate. -/
def State.vread (s : State) (part die : Nat) (va : W64) (n : Nat) : Except W64 (List Byte) :=
  (pieces va n).foldl (fun acc p =>
    match acc with
    | .error e => .error e
    | .ok l =>
      match s.xlat part die p.1 false with
      | .ok pa _ => .ok (l ++ s.mem.readBytes pa p.2)
      | _ => .error p.1) (.ok [])

/-- A little-endian number of n bytes at a virtual address. -/
def State.vreadLe (s : State) (part die : Nat) (va : W64) (n : Nat) : Except W64 Nat := (s.vread part die va n).map leNat

/-- The pages of a range translate for writing; the first that does not. -/
def State.vcheck (s : State) (part die : Nat) (va : W64) (n : Nat) (write : Bool) : Option W64 :=
  ((pieces va n).find? fun p => match s.xlat part die p.1 write with | .ok _ _ => false | _ => true).map (·.1)

/-- Bytes written at a virtual address; nothing is written where a page does not translate. -/
def State.vwrite (s : State) (part die : Nat) (va : W64) (bs : List Byte) : Except W64 State :=
  match s.vcheck part die va bs.length true with
  | some e => .error e
  | none =>
    .ok ((pieces va bs.length).foldl (fun (a : State × List Byte) p =>
      match s.xlat part die p.1 true with
      | .ok pa _ => (a.1.physWrite part pa (a.2.take p.2), a.2.drop p.2)
      | _ => (a.1, a.2.drop p.2)) (s, bs)).1

/-- The physical pieces that bytes at a virtual address are written to, or the first address that does not translate. -/
def State.physPieces (s : State) (part die : Nat) (va : W64) (bs : List Byte) : Except W64 (List (Nat × List Byte)) :=
  match s.vcheck part die va bs.length true with
  | some e => .error e
  | none =>
    .ok ((pieces va bs.length).foldl (fun (a : List (Nat × List Byte) × List Byte) p =>
      match s.xlat part die p.1 true with
      | .ok pa _ => (a.1 ++ [(pa, a.2.take p.2)], a.2.drop p.2)
      | _ => (a.1, a.2.drop p.2)) ([], bs)).1

/-! ## A function's windows (R361, R362) -/

/-- The partition whose record names a virtual function (R337, R361). -/
def State.vfPart (s : State) (vf : Nat) : Option Nat := (s.parts.find? fun p => p.2.pr.vf != 0 && p.2.pr.vf.toNat == vf).map (·.1)
/-- The physical address an access of a memory window begins at: BAR2's RANGES, or the mailbox page. -/
def PartRec.hostAt (r : PartRec) (mbx : W64) (a : HostAccess) : Option Nat :=
  if a.bar0 then (if mbx = 0 ∨ 0x1000 ≤ a.off then none else some (mbx.toNat + a.off)) else rangeAt r.ranges a.off

end Sys2Proof.Machine
end

