-- ==== Sys2Proof/Machine/Rows.lean ====
section
/-!
DEFINITION. Rows and slots of a core: survival depths, mapping at placement, FLOOR, evacuation (R27 to R30, R168, R235 to
R239, R244 to R247); the operating-point sequencer (R240 to R243); leases (R183, R350).
-/
namespace Sys2Proof.Machine

/-! ## Survival depths (R235, R236) -/

/-- A pool row's depth on a part that meets the counts of R236 exactly (assumption 7). -/
def baseDepth (r : Nat) : Nat :=
  if r < 10240 then 0 else if r < 11008 then 1 else if r < 11520 then 2 else if r < 11904 then 3
  else if r < 12160 then 4 else if r < 12288 then 5 else 6
/-- A Larder slot's depth on that part. -/
def baseSlot (s : Nat) : Nat :=
  if s < 24 then 0 else if s < 26 then 1 else if s < 28 then 2 else if s < 30 then 3 else if s < 31 then 4 else 5

/-- The depth of a physical pool row; 8 retired. -/
def Rows.depthOf (x : Rows) (r : Nat) : Nat := SMap.get (baseDepth r) x.depth r
/-- The depth of a Larder row: 64 * slot + row. -/
def Rows.ldepthOf (x : Rows) (r : Nat) : Nat := SMap.get (baseSlot (r / 64)) x.ldepth r
/-- A physical slot's depth: the greatest of its rows' (R235). -/
def Rows.slotDepth (x : Rows) (s : Nat) : Nat :=
  (x.ldepth.filter fun p => p.1 / 64 == s).foldl (fun a p => max a p.2) (baseSlot s)
/-- S(k): physical pool rows of depth at most k. -/
def Rows.survivors (x : Rows) (k : Nat) : Nat := ((List.range 12800).filter fun r => decide (x.depthOf r ≤ k)).length
/-- L(k): physical slots of depth at most k. -/
def Rows.slotSurvivors (x : Rows) (k : Nat) : Nat := ((List.range 32).filter fun r => decide (x.slotDepth r ≤ k)).length
/-- The count R236 guarantees at an operating point: pool rows, slots. -/
def guaranteed (k : Nat) : Nat × Nat :=
  match k with
  | 0 => (10240, 24) | 1 => (11008, 26) | 2 => (11520, 28) | 3 => (11904, 30) | 4 => (12160, 31) | _ => (12288, 32)

/-- Physical rows by rising depth, then number. -/
def Rows.byDepth (x : Rows) : List Nat :=
  (List.range 9).flatMap fun d => (List.range 12800).filter fun r => x.depthOf r == d
/-- Physical slots by rising depth, then number. -/
def Rows.slotsByDepth (x : Rows) : List Nat :=
  (List.range 9).flatMap fun d => (List.range 32).filter fun s => x.slotDepth s == d

/-! ## Mapping (R29, R238) -/

/-- A remap entry: V and PROW (R29). -/
def mapEntry (prow : Nat) : BitVec 16 := BitVec.ofNat 16 (0x4000 + prow)
def entryRow (e : BitVec 16) : Nat := (e.extractLsb' 0 14).toNat
def entryValid (e : BitVec 16) : Bool := e.getLsbD 14

/-- Rows of a partition word: register, accumulator and scratch regions (R27, R28). -/
def ppwRows (w : W32) : Nat := 256 + 8 * ppwAcc w + 8 * ppwScr w

/-- The remap table of a placement (R29). -/
def Rows.fillRemap (x : Rows) (w : W32) : SMap (BitVec 16) :=
  (List.range (ppwRows w)).zip (x.byDepth.map mapEntry)
/-- The slot map of a placement (R238). -/
def Rows.fillSlots (x : Rows) : SMap (BitVec 8) := (List.range 32).zip (x.slotsByDepth.map (BitVec.ofNat 8))

/-- Mapped rows: logical, physical. -/
def Rows.mapped (x : Rows) : List (Nat × Nat) := (x.remap.filter fun p => entryValid p.2).map fun p => (p.1, entryRow p.2)
/-- The spares of depth at most j, by rising depth, then number: unmapped physical rows that survive at FOP (R29, R168). -/
def Rows.spares (x : Rows) (j : Nat) : List Nat :=
  let used := x.mapped.foldl (fun m p => m ||| 2 ^ p.2) 0
  x.byDepth.filter fun r => decide (x.depthOf r ≤ min j (ppwFop x.ppw)) && !used.testBit r
/-- The physical slot of a logical slot (R238). -/
def Rows.physSlot (x : Rows) (l : Nat) : Nat := (SMap.get (BitVec.ofNat 8 l) x.lmap l).toNat
/-- The logical slot of a physical slot. -/
def Rows.logSlot (x : Rows) (p : Nat) : Nat := ((List.range 32).find? fun l => x.physSlot l == p).getD p
/-- Whether a logical slot is claimed (R32). -/
def Rows.claimed (x : Rows) (l : Nat) : Bool := (SMap.get (0 : Byte) x.owner l).getLsbD 7
def Rows.claimedSlots (x : Rows) : List Nat := (List.range 32).filter x.claimed
/-- Unclaimed physical slots of depth at most j, by rising depth, then number. -/
def Rows.freeSlots (x : Rows) (j : Nat) : List Nat :=
  x.slotsByDepth.filter fun p => decide (x.slotDepth p ≤ j) && !x.claimed (x.logSlot p)

/-- FLOOR over the mapped rows and claimed slots that are not retired (R30). -/
def Rows.computeFloor (x : Rows) : Nat :=
  let a := x.mapped.foldl (fun m p => if x.depthOf p.2 < 8 then max m (x.depthOf p.2) else m) 0
  x.claimedSlots.foldl (fun m l => if x.slotDepth (x.physSlot l) < 8 then max m (x.slotDepth (x.physSlot l)) else m) a

/-! ## The sequencer (R240 to R243) -/

/-- The effective target (R242): at most OP6 while the core holds no lease, where FLOOR is 7 too (R2; assumption 63). -/
def Core.target (k : Core) : Nat :=
  let t := max k.rows.floor (min k.pwr.ceiling k.pwr.req)
  if k.lease.isSome then t else min 6 t
/-- A step's window in PCC cycles (R241). -/
def stepWindow (a b : Nat) : Nat := if a < b then (if b = 7 then 4860 else 3060) else (if a = 7 then 3900 else 2460)
/-- The next step toward the target begins at a PCC, where no window is open. -/
def Core.retarget (k : Core) (pcc : Nat) : Core :=
  if k.pwr.window.isSome ∨ k.target = k.pwr.op then k
  else
    let b := if k.pwr.op < k.target then k.pwr.op + 1 else k.pwr.op - 1
    { k with pwr := { k.pwr with window := some (b, pcc + stepWindow k.pwr.op b) } }
/-- Tenths of a GHz at an operating point (R236). -/
def opClock (op : Nat) : Nat :=
  match op with
  | 0 => 9 | 1 => 12 | 2 => 15 | 3 => 19 | 4 => 23 | 5 => 27 | 6 => 30 | _ => 34
/-- The clock in force: throughout a window the lower of its step's two (R240). -/
def Core.clock (k : Core) : Nat :=
  match k.pwr.window with
  | some (b, _) => min (opClock k.pwr.op) (opClock b)
  | none => opClock k.pwr.op

/-- The core's launch is in a communication step (R56, R299). -/
def State.inStep (s : State) (core : Nat) : Bool :=
  match s.launchAt core with
  | some l => match l.step with
    | some (_, e) => decide (s.pcc < e)
    | none => false
  | none => false

/-- A request of an operating point, deferred in a communication step (R242). -/
def State.requestOp (s : State) (core j : Nat) : State :=
  let k := s.coreAt core
  if s.inStep core then s.setCoreAt core { k with pwr := { k.pwr with deferred := some j } }
  else s.setCoreAt core ({ k with pwr := { k.pwr with req := j } }.retarget s.pcc)

/-! ## Evacuation (R168) -/

/-- The doomed mapped rows, their spares, the doomed claimed slots and their free slots at a point j (R168). -/
structure EvacPlan where
  d : List (Nat × Nat)
  p : List Nat
  dl : List Nat
  pl : List Nat
  deriving DecidableEq, Repr

def Rows.evacPlan (x : Rows) (j : Nat) : EvacPlan :=
  { d := x.mapped.filter fun p => decide (j < x.depthOf p.2), p := x.spares j,
    dl := x.claimedSlots.filter fun l => decide (j < x.slotDepth (x.physSlot l)), pl := x.freeSlots j }
/-- Whether the spares suffice. -/
def EvacPlan.fits (e : EvacPlan) : Bool := decide (e.d.length ≤ e.p.length) && decide (e.dl.length ≤ e.pl.length)
/-- Core cycles of an evacuation (R168). -/
def EvacPlan.cycles (e : EvacPlan) : Nat := 16 + 2 * e.d.length + 128 * e.dl.length

/-- The erring words of one physical place moved to another with their check bits (R246). -/
def moveErrs (errs : SMap Bool) (size src dst : Nat) : SMap Bool :=
  let kept := errs.filter fun e => e.1 / size ≠ dst
  (errs.filter fun e => e.1 / size = src).foldl (fun m e => m.put (dst * size + e.1 % size) e.2) kept

/-- A mapped row moved to a spare: its contents are the logical row's and stay. -/
def Rows.moveRow (x : Rows) (logical old new : Nat) : Rows :=
  { x with remap := x.remap.put logical (mapEntry new), errs := moveErrs x.errs 32 old new }
/-- A claimed slot moved to a free physical slot; the logical slot that held it takes the old one, which is zeroed and so
holds no error (R239, R249). -/
def Rows.moveSlot (x : Rows) (l new : Nat) : Rows :=
  let old := x.physSlot l
  let m := x.logSlot new
  { x with lmap := (x.lmap.put l (BitVec.ofNat 8 new)).put m (BitVec.ofNat 8 old),
           errs := (moveErrs x.errs 2048 (512 + old) (512 + new)).filter fun e => e.1 / 2048 ≠ 512 + old }

/-- Whether nothing mapped or claimed is retired or lies deeper than FOP (R246). -/
def Rows.clean (x : Rows) : Bool :=
  let fop := ppwFop x.ppw
  x.mapped.all (fun p => decide (x.depthOf p.2 ≤ fop)) &&
    x.claimedSlots.all fun l => decide (x.slotDepth (x.physSlot l) ≤ fop)

/-- The moves of a plan that fits: rows, slots (a displaced logical slot reads zero), FLOOR, the evacuation-pending bit,
the target (R168, R239, R242, R246). -/
def Core.evacuate (k : Core) (e : EvacPlan) (pcc : Nat) : Core :=
  let r1 := (e.d.zip e.p).foldl (fun (x : Rows) m => x.moveRow m.1.1 m.1.2 m.2) k.rows
  let go := (e.dl.zip e.pl).foldl (fun (a : Rows × Memory) m =>
    (a.1.moveSlot m.1 m.2, a.2.filter fun c => c.1 / 16384 ≠ a.1.logSlot m.2)) (r1, k.larder)
  let r2 := go.1
  { k with larder := go.2,
           rows := { r2 with floor := r2.computeFloor, evacPend := r2.evacPend && !r2.clean } }.retarget pcc

/-! ## Errors in rows (R249) -/

/-- The key of an erring pool word: 32 words of 8 bytes a row. -/
def poolErr (prow word : Nat) : Nat := 32 * prow + word
/-- The key of an erring Larder word: 2048 words a slot, from row 512 * 32 of the keys on. -/
def larderErr (pslot row word : Nat) : Nat := 2048 * (512 + pslot) + 32 * row + word

/-- The physical row of a logical row. -/
def Rows.physRow (x : Rows) (l : Nat) : Nat := entryRow (SMap.get 0 x.remap l)
/-- Whether a word of a logical row holds an uncorrectable error. -/
def Rows.bad (x : Rows) (logical word : Nat) : Bool := x.errs ≠ [] && SMap.get false x.errs (poolErr (x.physRow logical) word)
/-- Whether a word of a logical Larder slot's row holds an uncorrectable error. -/
def Rows.badSlot (x : Rows) (slot row word : Nat) : Bool :=
  x.errs ≠ [] && SMap.get false x.errs (larderErr (x.physSlot slot) row word)
/-- Whether any word of a logical row holds an uncorrectable error. -/
def Rows.badRow (x : Rows) (logical : Nat) : Bool := x.errs ≠ [] && (List.range 32).any fun w => x.bad logical w
/-- The logical row of a scratch byte (R28). -/
def Rows.scratchRow (x : Rows) (a : Nat) : Nat := 256 + 8 * ppwAcc x.ppw + a / 256
/-- Whether a scratch byte lies in a word with an uncorrectable error; and the word's physical row. -/
def Rows.badByte (x : Rows) (a : Nat) : Bool := x.bad (x.scratchRow a) (a % 256 / 8)
def Rows.rowOfByte (x : Rows) (a : Nat) : Nat := x.physRow (x.scratchRow a)
/-- The single-bit errors among some keys, which a read corrects in place (R249). -/
def Rows.fixKeys (x : Rows) (p : Nat → Bool) : Rows :=
  if x.errs = [] then x else { x with errs := x.errs.filter fun e => e.2 || !p e.1 }
/-- A read of a logical row corrects its single-bit errors (R61, R249). -/
def Rows.fixRow (x : Rows) (logical : Nat) : Rows := x.fixKeys fun n => n / 32 == x.physRow logical
/-- A read of scratch bytes corrects the single-bit errors of their words. -/
def Rows.fixBytes (x : Rows) (a n : Nat) : Rows :=
  x.fixKeys fun key => decide (0 < n) && (List.range ((a % 8 + n + 7) / 8)).any fun i =>
    key == poolErr (x.rowOfByte (a + 8 * i)) ((a + 8 * i) % 256 / 8)
/-- A read of a Larder row corrects its single-bit errors. -/
def Rows.fixSlotRow (x : Rows) (slot row : Nat) : Rows := x.fixKeys fun n => n / 32 == 64 * (512 + x.physSlot slot) + row
/-- A row reported for in-field test (R61). -/
def Rows.report (x : Rows) (n : Nat) : Rows := { x with reports := x.reports ++ [n] }
/-- An error cleared by a write of a whole word (R249). -/
def Rows.clearByte (x : Rows) (a : Nat) : Rows :=
  if x.errs = [] then x else { x with errs := x.errs.del (poolErr (x.rowOfByte a) (a % 256 / 8)) }
/-- The errors of a logical row cleared by a write of the row. -/
def Rows.clearRow (x : Rows) (logical : Nat) : Rows :=
  if x.errs = [] then x else { x with errs := x.errs.filter fun e => e.1 / 32 ≠ x.physRow logical }

/-- The rows a write of a context's vector register, or of its tile, writes whole hold no error (R28, R249). -/
def Rows.clearRows (x : Rows) (l : List Nat) : Rows := if x.errs = [] then x else l.foldl Rows.clearRow x

/-- The first of two register-region rows of a context's vector register (R28). -/
def vecRow (ctx n : Nat) : Nat := 64 * ctx + 2 * n
/-- The first of the 128 rows of a context's tile (R28). -/
def tileRow0 (ctx k t : Nat) : Nat := 256 + 128 * (ctx * k + t)

/-- The rows that a write of a context's tile writes, those of its hidden face, hold no error (R28, R249). -/
def Core.clearTile (k : Core) (ctx tiles t : Nat) : Core :=
  let base := tileRow0 ctx tiles t + (if ((k.ctx ctx).cur.regs.getAcc t).sw then 0 else 64)
  { k with rows := k.rows.clearRows ((List.range 64).map (base + ·)) }

/-! ## Leases (R183, R350) -/

/-- A lease's refund: the part of its debit that its remaining time bears to what was granted (R350). -/
def Lease.refund (l : Lease) : Nat := if 0 < l.granted then l.debit * l.left / l.granted else 0
/-- A lease ends on a core: refunded or not; a requested point of 7 becomes 6, every requested point where the launch is
cancelled, reset or quiesced (R350); and the core leaves OP7. -/
def State.endLease (s : State) (core : Nat) (refund all : Bool) : State :=
  let k := s.coreAt core
  match k.lease with
  | none => s
  | some l =>
    let k1 := { k with lease := none,
                       pwr := { k.pwr with req := if all || k.pwr.req == 7 then 6 else k.pwr.req } }
    let s1 := s.setCoreAt core (k1.retarget s.pcc)
    match k.launch with
    | some (p, _) =>
      let q := s1.part p
      if refund && 0 < l.granted then s1.setPart p { q with pool := q.pool + Int.ofNat l.refund } else s1
    | none => s1

end Sys2Proof.Machine
end

