-- ==== Sys2Proof/Machine/Record.lean ====
section
/-!
DEFINITION. What the device writes about itself: joined names (R322), host events (R374), and the bytes of the state
block, the Larder and the pool that dumps and save areas share (R326 to R328).
-/
namespace Sys2Proof.Machine

/-- A joined name's 96 bits from its fields (R322). -/
def joinedName (part : Nat) (pid tid : BitVec 24) (grp core ctx : Nat) : BitVec 96 :=
  BitVec.ofNat 96 (part % 64 + pid.toNat * 2 ^ 6 + tid.toNat * 2 ^ 30 + grp % 256 * 2 ^ 54 + core % 1024 * 2 ^ 62 +
    ctx % 8 * 2 ^ 72)
/-- GRP: the lowest of vis(grp0) to vis(grp3) (R322). -/
def lowGroup (r : RegFile) : Nat :=
  min (min (r.getGrp 0).toNat (r.getGrp 1).toNat) (min (r.getGrp 2).toNat (r.getGrp 3).toNat)
/-- The joined name of a context of a launch's core. -/
def contextName (l : Launch) (k : Core) (core ctx : Nat) : List Byte :=
  leBytes 12 (joinedName l.part l.pid l.tid (lowGroup (k.ctx ctx).cur.regs) core ctx).toNat

/-- A list of exactly n bytes: cut, or filled with zeros. -/
def pad (n : Nat) (l : List Byte) : List Byte := (l ++ List.replicate (n - l.length) 0).take n

/-- A host event's bytes after its type: the PCC and the type's own fields, in a layout the spec does not state (R374) but for the
second byte of type 5 (R377). -/
def eventTail (type pcc : Nat) (fields : List Nat) : List Byte :=
  if type = 5 then BitVec.ofNat 8 (fields.headD 0) :: Config.eventBytes type pcc [] else Config.eventBytes type pcc fields
/-- A host event's record: the type, then 31 bytes (R374). -/
def State.hostEvent (s : State) (type : Nat) (fields : List Nat) : State :=
  let g := s.pkg
  if g.hevbase = 0 ∨ (g.hevidx - g.hevrd).toNat = 256 then { s with pkg := { g with hevlost := g.hevlost + 1 } }
  else
    let a := (g.hevbase.extractLsb' 13 51).toNat * 8192 + 32 * (g.hevidx.toNat % 256)
    { s with mem := s.mem.writeBytes a (pad 32 (BitVec.ofNat 8 type :: eventTail type s.pcc fields)),
             pkg := { g with hevidx := g.hevidx + 1 } }.raiseIrq (.pf0 0)

/-! ## The survival map (R237) -/

/-- The nibble of a depth: 0 to 7, or 0xF for a retired row; and the depth of a nibble, none where it is invalid. -/
def depthNibble (d : Nat) : Nat := if d < 8 then d else 15
def nibbleDepth (n : Nat) : Option Nat := if n < 8 then some n else if n = 15 then some 8 else none
/-- Two rows' depths in a byte: the even row's in the low nibble. -/
def depthByte (even odd : Nat) : Byte := BitVec.ofNat 8 (depthNibble even + 16 * depthNibble odd)
/-- A core's record: CORE, GEN, the depths of the pool rows and of the Larder rows. -/
def Rows.mapRecord (x : Rows) (core : Nat) : List Byte :=
  leBytes 2 core ++ leBytes 2 0 ++ leBytes 4 x.gen.toNat ++
    ((List.range 6400).map fun i => depthByte (x.depthOf (2 * i)) (x.depthOf (2 * i + 1))) ++
    ((List.range 1024).map fun i => depthByte (x.ldepthOf (2 * i)) (x.ldepthOf (2 * i + 1))) ++ leBytes 8 0
/-- The digest of all records, in core order; the map's signature: the production key's at manufacture, the device identity
key's after an update. -/
def State.mapDigest (s : State) : BitVec 512 :=
  Config.shake256 ((List.range 576).flatMap fun c => (s.coreAt c).rows.mapRecord c)
def State.mapSignature (s : State) : BitVec 26472 := s.pkg.mapSig.getD (Config.productionSign s.mapDigest)
/-- The map signed anew after an update of a record (R237, R245). -/
def State.signMap (s : State) : State := { s with pkg := { s.pkg with mapSig := some (Config.identitySign s.mapDigest) } }

/-! ## The state block (R327, R328) -/

/-- The RDSCHED code of a context's state (R184). -/
def CtxStatus.code (c : CtxStatus) : Nat :=
  match c with
  | .absent => 0 | .ready => 1 | .blocked => 2 | .awaiting => 3 | .inService => 4 | .halted => 5 | .stopped => 6

/-- Bits packed from the lowest. -/
def packBits (l : List Bool) : Nat := l.foldr (fun b n => b.toNat + 2 * n) 0

/-- Both faces of a list of registers, each of n bytes. -/
def facesOf {w : Nat} (n : Nat) (fs : List (Face (BitVec w))) : List Byte :=
  fs.flatMap fun f => leBytes n f.vis.toNat ++ leBytes n f.hid.toNat

/-- A loop level's 24 bytes. -/
def loopBytes (l : Option LoopLevel) : List Byte :=
  match l with
  | some v => leBytes 4 v.count.toNat ++ leBytes 4 0 ++ leBytes 8 v.start.toNat ++ leBytes 8 v.stop.toNat
  | none => leBytes 24 0

/-- An in-flight record: writer, destination, landed, cancelled, value (R328). -/
def flightBytes (landed cut : Bool) (r : Nat × Nat × W64 × Option W64) : List Byte :=
  leBytes 4 (r.1 % 256 + 256 * (r.2.1 % 512) + 2 ^ 17 * landed.toNat + 2 ^ 18 * cut.toNat + 2 ^ 19 * r.2.2.2.isSome.toNat) ++
    leBytes 4 r.2.2.1.toNat ++ leBytes 8 (r.2.2.2.getD 0).toNat

/-- A context's writes in flight: those of the phase not landed, its routines' and its CATOMs' (R40, R328): writer,
destination, issuing sc, value. -/
def Core.inFlight (k : Core) (c : Nat) : List (Nat × Nat × W64 × Option W64) :=
  let x := k.ctx c
  let eng := fun (e : Bool) =>
    match (k.eng e).run with
    | some r =>
      if r.ctx = c then
        (if r.opens.isEmpty then [0x1FF] else r.opens.map fun t => 0xC0 + t).map fun d => (if e then 5 else 4, d, r.sclk, none)
      else []
    | none => []
  x.ntWait.map (fun r => (1, 0x88 + r.1, r.2, none)) ++
    x.cur.amPend.map (fun r => (r.slot, 0x8C + r.am, r.issued, some (r.val.setWidth 64))) ++
    x.mzWait.map (fun r => (if r.eng then 5 else 4, 0xC0 + r.tile, r.issued, none)) ++ eng false ++ eng true ++
    (k.ce.catoms.filter fun m => m.ctx == c).map fun m => (6, 0x9A, m.sclk, none)

/-- The in-flight records of a context's phase: those landed, those still in flight, those a stop cancelled (R59, R328). -/
def flights (k : Core) (c : Nat) : List Byte :=
  let x := k.ctx c
  let live := if x.status = .stopped then [] else k.inFlight c
  pad 1024 (x.landed.flatMap (flightBytes true false) ++ live.flatMap (flightBytes false false) ++
    x.cut.flatMap (flightBytes false true))

/-- An operand port's bytes; zero in a save area (R328). -/
def portBytes (a : CtxArch) (saving : Bool) (n key : Nat) : List Byte :=
  if saving then leBytes n 0 else leBytes n (SMap.get {} a.opnd key).val.toNat
def portTag (a : CtxArch) (saving : Bool) (key : Nat) : List Byte :=
  if saving then [0] else leBytes 1 (SMap.get {} a.opnd key).tag.toNat

/-- Registers' written bits in the order of R328. -/
def writtenBits (r : RegFile) : List Bool :=
  ((List.range 64).map fun i => (r.getS i).wr) ++ ((List.range 16).map fun i => (r.getA i).wr) ++
  ((List.range 32).map fun i => (r.getV i).wr) ++ ((List.range 16).map fun i => (r.getP i).wr) ++
  ((List.range 8).map fun i => (r.getM i).wr) ++ ((List.range 4).map fun i => (r.getNt i).wr) ++
  ((List.range 4).map fun i => (r.getAm i).wr) ++ [r.flg.wr] ++ ((List.range 16).map fun i => (r.getAcc i).wr)

/-- Operand-port keys (R78). -/
def keyOf (slot id : Nat) : Nat := 512 * slot + id

/-- A context record's bytes from 0x000 to 0x62F (R328). -/
def recordHead (x : Ctx) : List Byte :=
  let a := x.cur
  let r := a.regs
  leBytes 8 a.pc.toNat ++ leBytes 8 a.mpc.toNat ++ leBytes 8 a.sclk.toNat ++
  loopBytes a.loops.reverse.head? ++ loopBytes (a.loops.reverse.drop 1).head? ++
  leBytes 8 (a.nti.toNat + 16 * a.bind.toNat + 256 * x.status.code + 4096 * x.entry.isSome.toNat +
    8192 * x.timerReq.toNat) ++
  leBytes 8 (x.timer.getD 0) ++
  leBytes 8 (packBits (((List.range 32).map fun i => (r.getV i).sw) ++ ((List.range 16).map fun i => (r.getAcc i).sw))) ++
  ((List.range 32).flatMap fun i => leBytes 1 ((r.getV i).vis.tag.toNat + 16 * (r.getV i).hid.tag.toNat)) ++
  ((List.range 16).flatMap fun i => leBytes 1 ((r.getAcc i).vis.tag.toNat + 16 * (r.getAcc i).hid.tag.toNat)) ++
  leBytes 32 (packBits (writtenBits r)) ++
  leBytes 4 r.flg.vis.toNat ++ leBytes 4 r.flg.hid.toNat ++ leBytes 4 r.flg.acc.toNat ++ leBytes 4 r.flg.clr.toNat ++
  facesOf 4 ((List.range 64).map r.getS) ++ facesOf 8 ((List.range 16).map r.getA) ++
  leBytes 4 (packBits (((List.range 16).map fun i => (r.getP i).vis) ++ ((List.range 16).map fun i => (r.getP i).hid))) ++
  ((List.range 4).map r.getGrp) ++ leBytes 8 0 ++
  facesOf 32 ((List.range 8).map r.getM) ++ facesOf 8 ((List.range 4).map r.getNt) ++ facesOf 4 ((List.range 4).map r.getAm)

/-- A context record's port fields from 0x630 on (R328). -/
def recordPorts (a : CtxArch) (saving : Bool) : List Byte :=
  let q := fun n id => leBytes n (SMap.get {} a.ports id).val.toNat
  let p := portBytes a saving
  let tq := fun id => leBytes 1 (SMap.get {} a.ports id).tag.toNat
  let tp := portTag a saving
  pad 160 (q 4 0x90 ++ q 4 0x91 ++ q 8 0x92 ++ q 8 0x9A ++
    p 4 (keyOf 0 0x100) ++ p 4 (keyOf 0 0x101) ++ p 4 (keyOf 1 0x100) ++ p 4 (keyOf 1 0x101) ++
    p 8 0x102 ++ p 8 0x103 ++ p 8 (keyOf 0 0x104) ++ p 8 (keyOf 0 0x105) ++
    p 8 (keyOf 7 0x100) ++ p 8 (keyOf 7 0x101) ++ p 8 (keyOf 7 0x102) ++
    p 8 (keyOf 6 0x100) ++ p 8 (keyOf 6 0x101) ++ p 8 (keyOf 6 0x102) ++ p 8 (keyOf 6 0x103) ++
    p 8 (keyOf 4 0x101) ++ p 8 (keyOf 5 0x101) ++
    tq 0x93 ++ tq 0x94 ++ tq 0x95 ++ tq 0x96 ++ tq 0x97 ++ tq 0x98 ++ tq 0x99 ++
    tp (keyOf 2 0x100) ++ tp (keyOf 2 0x101) ++ tp (keyOf 3 0x100) ++ tp (keyOf 3 0x101) ++
    tp (keyOf 4 0x100) ++ tp (keyOf 5 0x100)) ++
  leBytes 48 0 ++ q 256 0x93 ++ q 256 0x94 ++ q 256 0x95 ++ q 256 0x96 ++ q 256 0x97 ++ q 256 0x98 ++ q 256 0x99 ++
  p 256 (keyOf 2 0x100) ++ p 256 (keyOf 2 0x101) ++ p 256 (keyOf 3 0x100) ++ p 256 (keyOf 3 0x101) ++
  p 256 (keyOf 4 0x100) ++ p 256 (keyOf 5 0x100) ++
  p 32 (keyOf 2 0x102) ++ p 32 (keyOf 3 0x102) ++ p 32 (keyOf 4 0x102) ++ p 32 (keyOf 5 0x102)

/-- A context record (R328). -/
def contextRecord (k : Core) (c : Nat) (saving : Bool) : List Byte :=
  pad 7168 (pad 0x630 (recordHead (k.ctx c)) ++ recordPorts (k.ctx c).cur saving ++ flights k c)

/-! Parts of the state block whose contents the spec lists and whose layout it does not state (R327): bytes that depend on the
contents, by functions nothing in Lean can evaluate (assumption 14). -/

/-- The handler record: the handler's registers, ports, PC, SCLK and HSEL, and the served context. -/
opaque handlerBytes : CtxArch → Option Nat → List Byte
/-- An engine's record: holder, configuration, Busy, the routine's micro-address, Saffron, SQD, mp. -/
opaque engineBytes : Engine → List Byte
/-- The slot map, the owner records and the watchpoints. -/
opaque slotBytes : SMap (BitVec 8) → SMap Byte → SMap Watchpoint → List Byte
/-- The copy engine, with the contexts' chunk bitmaps and XFER lists. -/
opaque copyBytes : CopyEngine → List (SMap W64) → List (List XferEntry) → List Byte
/-- The groups of the core's contexts, and their episodes' arrivals. -/
opaque groupBytes : List (List Byte) → SMap Episode → List Byte

/-- An engine without what the state block holds elsewhere. -/
def Engine.head (g : Engine) : Engine := { g with store := [], rtab := [], lines := [], idle := 0 }
/-- The copy engine without the decode tables, which the state block holds elsewhere. -/
def CopyEngine.head (c : CopyEngine) : CopyEngine := { c with tables := [] }
/-- A list of the core's user contexts. -/
def Core.users {α : Type} (k : Core) (f : Ctx → α) : List α := (List.range 4).map fun c => f (k.ctx c)

/-- The state block from 0x7100 to 0xAFFF (R327). -/
def openBlock (k : Core) (l : Launch) : List Byte :=
  pad 4096 (handlerBytes (k.ctx handlerCtx).cur k.svc.served) ++ pad 1024 (engineBytes k.me0.head) ++
    pad 1024 (engineBytes k.me1.head) ++ pad 256 (slotBytes k.rows.lmap k.rows.owner k.wps) ++
    pad 9216 (copyBytes k.ce.head (k.users (·.cb)) (k.users (·.xfers))) ++
    pad 512 (groupBytes (k.users fun x => (List.range 4).map x.cur.regs.getGrp) l.episodes)

/-- The state block's header (R327). -/
def blockHead (k : Core) (core : Nat) (tag : W32) (pcc opc : Nat) : List Byte :=
  leBytes 2 core ++ leBytes 2 0 ++ leBytes 4 tag.toNat ++ leBytes 8 pcc ++ leBytes 1 opc ++ leBytes 1 k.rows.floor ++
  leBytes 1 k.rows.evacPend.toNat ++ leBytes 1 (packBits ((List.range 4).map fun c => (k.ctx c).status != .absent)) ++
  leBytes 4 k.tr.widx.toNat ++
  (match k.lease with
   | some l => leBytes 8 l.left ++ leBytes 1 (l.ctx % 8 + 128)
   | none => leBytes 9 0)

/-- A microprogram store in its image form: 64 routine entries, 512 words (R286). -/
def storeBytes (g : Engine) : List Byte :=
  ((List.range 64).flatMap fun i => leBytes 2 (SMap.get (0 : BitVec 16) g.rtab i).toNat) ++
  ((List.range 512).flatMap fun i => leBytes 4 (SMap.get (0 : W32) g.store i).toNat)

/-- A loaded decode table's 128 bytes (R177). -/
def tableBytes (k : Core) (i : Nat) : List Byte :=
  match SMap.find k.ce.tables i with
  | some l => (List.range 128).map fun j => BitVec.ofNat 8 (l.getD (2 * j) 0 + 16 * l.getD (2 * j + 1) 0)
  | none => leBytes 128 0

/-- A cycle-class table: 65 lines and the idle counter (R334). -/
def cycleBytes (g : Engine) : List Byte :=
  pad 2600 (g.lines.flatMap fun l => leBytes 8 l.addr.toNat ++
    ((List.range 5).flatMap fun i => leBytes 6 (l.counts.getD i 0)) ++ leBytes 2 0) ++ leBytes 8 g.idle

/-- The state block of a core (R327). -/
def stateBlock (k : Core) (core : Nat) (l : Launch) (pcc opc : Nat) (saving : Bool) : List Byte :=
  pad 256 (blockHead k core l.tag pcc opc) ++ ((List.range 4).flatMap fun c => contextRecord k c saving) ++ openBlock k l ++
  ((List.range 512).flatMap fun i => leBytes 8 (SMap.get (0 : W64) k.tr.ring i).toNat) ++
  storeBytes k.me0 ++ storeBytes k.me1 ++ ((List.range 16).flatMap fun i => tableBytes k i) ++
  cycleBytes k.me0 ++ cycleBytes k.me1 ++ leBytes 4768 0

/-- The Larder's bytes in logical slot order. -/
def larderBytes (k : Core) : List Byte := k.larder.readBytes 0 524288

/-- The 64 rows of a tile's face as bytes. -/
def faceBytes (t : Tile) : List Byte := leBytes 16384 t.toNat

/-- A two-faced value in its two rows: the visible face first where sw is false (R28). -/
def twoRows {α : Type} (f : Face α) (g : α → List Byte) : List Byte :=
  if f.sw then g f.hid ++ g f.vis else g f.vis ++ g f.hid

/-- The pool's logical rows; rows not mapped are zero (R326). -/
def poolBytes (k : Core) (nctx : Nat) : List Byte :=
  let tiles := accTiles k.rows.ppw nctx
  let regs := (List.range 4).flatMap fun c => (List.range 32).flatMap fun n =>
    twoRows ((k.ctx c).cur.regs.getV n) fun v => leBytes 256 v.val.toNat
  let accs := (List.range nctx).flatMap fun c => (List.range tiles).flatMap fun t =>
    twoRows ((k.ctx c).cur.regs.getAcc t) fun v => faceBytes v.val
  pad 3145728 (regs ++ pad (2048 * ppwAcc k.rows.ppw) accs ++ k.scratch.readBytes 0 k.scratchSize)

end Sys2Proof.Machine
end

