-- ==== Sys2Proof/Machine/Pages.lean ====
section
/-!
DEFINITION. The shared-unit counters (R335), what an access leaves beside its bytes (R260, R352), background priority (R345), the
page-request queue of a die (R258, R259), and the translation registers (R255, R256, R340).
-/
namespace Sys2Proof.Machine

/-! ## Counters (R335, R352) -/

/-- The catalogue of this device (R352). -/
def catalogue : List Nat := [1, 2, 3, 4, 5, 0x10, 0x20, 0x30, 0x31, 0x40, 0x41, 0x50]

/-- n events counted on a die for a partition (R335). -/
def State.count (s : State) (part die event n : Nat) : State :=
  let b := s.txAt part die
  if b.counters.isEmpty then s
  else s.setTx part die { b with counters := b.counters.mapVal fun _ c =>
    if c.en && !c.unav && c.event == BitVec.ofNat 16 event then { c with val := c.val + BitVec.ofNat 64 n } else c }

/-- Bytes of a physical range in another die's memory. -/
def farBytes (die pa n : Nat) : Nat :=
  ((pieces (BitVec.ofNat 64 pa) n).map fun p => if Config.memDie p.1.toNat = die then 0 else p.2).sum

/-! ## Background priority (R345) -/

def ShapeRec.tx (r : ShapeRec) : Nat := (r.tile.extractLsb' 0 16).toNat
def ShapeRec.ty (r : ShapeRec) : Nat := (r.tile.extractLsb' 16 16).toNat
def ShapeRec.tz (r : ShapeRec) : Nat := (r.tile.extractLsb' 32 16).toNat
def ShapeRec.dec (r : ShapeRec) : Bool := r.ctrl.getLsbD 5
/-- The address of a decoded tile's index entry (R177). -/
def ShapeRec.entryAddr (r : ShapeRec) : W64 :=
  let nx := (r.dim0 + r.ext0 - 1) / r.ext0
  let ny := (r.dim1 + r.ext1 - 1) / r.ext1
  r.base + BitVec.ofNat 64 (8 * (r.tx + nx * (r.ty + ny * r.tz)))
/-- The words of a stream that may be read: those of its next two granules. -/
def Stream.window (st : Stream) : List Nat := (List.range 16).filterMap fun i =>
  let n := st.pos / 8 + i
  if 8 * n < st.len ∧ (SMap.find st.words n).isNone then some n else none
/-- The main-memory accesses of a core's copy engine that wait to be served. -/
def CopyEngine.asks (e : CopyEngine) : List W64 :=
  ((e.buf.filter (·.begun)).flatMap fun c =>
    if c.shape.dec then
      if c.els.all fun x => x.got.isSome then [] else [(c.dec.next.map (BitVec.ofNat 64)).getD c.shape.entryAddr]
    else (c.els.filter fun x => x.got.isSome == c.dir).map (·.va)) ++
    ((e.ch0.take 1 ++ e.ch1.take 1).flatMap fun st => st.window.map fun n => st.va + BitVec.ofNat 64 (8 * n)) ++ e.catoms.map (·.va)
/-- The address of the next metadata word a context's prefetch engine is to fetch (R84). -/
def Ctx.metaAsk (x : Ctx) : Option W64 :=
  if x.cur.mpc = 0 ∨ 256 ≤ x.fetch.mdbuf.length then none else some (x.cur.mpc + BitVec.ofNat 64 (4 * x.fetch.mdbuf.length))
/-- The main-memory accesses of a core that wait: its copy engine's, and its contexts' segments and metadata words. -/
def Core.asks (k : Core) : List W64 :=
  k.ce.asks ++ k.ctxs.flatMap fun x => (x.2.fetch.reqs.map (·.va)) ++ x.2.metaAsk.toList
/-- The channel that serves an address of a partition. -/
def State.channelOf (s : State) (part die : Nat) (va : W64) : Option Nat :=
  match s.xlat part die va false with
  | .ok pa _ => some (Config.channel pa)
  | _ => none
/-- A partition's requests are served at background priority: BG acts from the cycle after the charge that set it (R345). -/
def State.isBg (s : State) (part : Nat) : Bool := (s.part part).bg && decide ((s.part part).bgAt < s.pcc)
/-- The pages that the accesses of a port request begin on. -/
def PortWait.asks (w : PortWait) : List W64 :=
  let on := fun (va : W64) (n : Nat) => (pieces va n).map (·.1)
  match w.i with
  | .networkWorkRequest r => (r.rings.flatMap fun a => on a.va a.len) ++ on r.va r.len
  | .storageDma r => on r.va r.len
  | _ => []
/-- The channels of a physical range. -/
def channelsAt (pa n : Nat) : List Nat := (pieces (BitVec.ofNat 64 pa) n).map fun p => Config.channel p.1.toNat
/-- The channels a waiting access of a virtual function needs. -/
def State.hostChannels (s : State) (a : HostAccess) : List Nat :=
  match s.vfPart a.vf with
  | none => []
  | some p =>
    if s.isBg p then []
    else (((s.part p).pr.hostAt (s.part p).mbxbase a).map fun pa => channelsAt pa (if a.write then a.data.length else a.len)).getD []
/-- Whose record one is. -/
def Held.part (h : Held) : Nat :=
  match h with
  | .put p _ _ _ => p
  | .sample p _ _ _ => p
/-- The channels a waiting record needs. -/
def State.heldChannels (s : State) (h : Held) : List Nat :=
  match h with
  | .put _ _ l _ => l.flatMap fun x => channelsAt x.1 x.2.length
  | .sample p c _ _ => ((s.channelOf p (dieOf c) (s.coreAt c).tr.sbctl).map fun n => [n]).getD []
/-- Bytes of the dump slot that a dump fills (R326). -/
abbrev dumpSize : Nat := 0x392000
/-- The address of the Cellar slot a partition's next dump goes to (R324, R326). -/
def Cellar.nextSlot (c : Cellar) : Nat := c.widx.toNat % ((c.base.extractLsb' 0 8).toNat + 1)
def Cellar.nextAt (c : Cellar) : Nat := (c.base.extractLsb' 22 42).toNat * 4194304 + 4194304 * c.nextSlot
/-- A request at foreground priority waits for a channel: of a core, of a port, of a function, a record, or a dump whose time has come. -/
def State.foreground (s : State) (ch : Nat) : Bool :=
  (s.cores.any fun k =>
    match k.2.launch with
    | some (p, _) => !s.isBg p && k.2.asks.any fun a => s.channelOf p (dieOf k.1) a == some ch
    | none => false) ||
  (s.waits.any fun w => w.gives && !s.isBg w.cur.part && w.asks.any fun a => s.channelOf w.cur.part w.cur.die a == some ch) ||
  (s.pkg.hostq.any fun w => (s.hostChannels w.2).contains ch) ||
  (s.pkg.held.any fun h => !s.isBg h.part && (s.heldChannels h).contains ch) ||
  (s.dumps.any fun d => decide (d.due ≤ s.pcc) && !s.isBg d.part && (channelsAt (s.part d.part).cel.nextAt dumpSize).contains ch)
/-- A request of a partition gives way: the partition is at background priority, and a request at foreground priority waits for its
channel (R345). Which requests these are is a DESIGN CHOICE, unsafe (assumption 90). -/
def State.givesWay (s : State) (part die : Nat) (va : W64) : Bool :=
  s.isBg part && ((s.channelOf part die va).map s.foreground).getD false
/-- The same of a range, and of a physical range. -/
def State.givesWayOn (s : State) (part die : Nat) (va : W64) (n : Nat) : Bool :=
  s.isBg part && (pieces va n).any fun p => s.givesWay part die p.1
def State.givesWayAt (s : State) (part pa n : Nat) : Bool := s.isBg part && (channelsAt pa n).any s.foreground

/-! ### The device's own records (R185, R259, R260, R332, R341, R355) -/

/-- A record written, with its bytes across boundaries counted and its interrupts raised (R342, R352). -/
def State.putNow (s : State) (part die : Nat) (l : List (Nat × List Byte)) (irqs : List Irq) : State :=
  irqs.foldl State.raiseIrq (l.foldl (fun (s : State) x =>
    (s.physWrite part x.1 x.2).count part die 0x10 (farBytes die x.1 x.2.length)) s)
/-- A record of a partition waits. -/
def State.isHeld (s : State) (part : Nat) : Bool := s.pkg.held.any fun h => h.part == part
/-- A record that waits for its channels put behind the others. -/
def State.hold (s : State) (h : Held) : State := { s with pkg := { s.pkg with held := s.pkg.held ++ [h] } }
/-- A record written, or, at background priority, held while its channels are needed by others, or behind one of its partition
(R345). -/
def State.putRecord (s : State) (part die : Nat) (l : List (Nat × List Byte)) (irqs : List Irq) : State :=
  if s.isHeld part || l.any fun x => s.givesWayAt part x.1 x.2.length then s.hold (.put part die l irqs) else s.putNow part die l irqs

/-! ## What an agent's access leaves beside its bytes (R254, R260, R352) -/

/-- A hit's record appended at WATCHBASE, with an MSI; one that finds the ring full is dropped and raises the lost count that the
next record carries. The ring's size and when it is full are free values (assumption 20). -/
def State.watch (s : State) (part die : Nat) (va : W64) (len kind : Nat) (write watched : Bool) : State :=
  let b := s.txAt part die
  let p := s.part part
  if watched && p.accepts 2 && watchHits b va len write then
    let q := s.draw
    if Config.watchFull q.1 then q.2.setTx part die { b with watchLost := b.watchLost + 1 }
    else
      let base := (b.watchbase.extractLsb' 12 52).toNat * 4096
      let r := leBytes 8 va.toNat ++ leBytes 4 len ++ [BitVec.ofNat 8 kind] ++ leBytes 3 b.watchLost
      (q.2.setTx part die { b with watchIdx := b.watchIdx + 1, watchLost := 0 }).putRecord part die
        [(base + 16 * (b.watchIdx % max 1 Config.watchSlots), r)] [.hart p.lowHart 4 0]
  else s
/-- The watched-page records of an access that has translated (R260); the agent kind's value is not stated. -/
def State.watchRange (s : State) (part die : Nat) (va : W64) (n : Nat) (write : Bool) : State :=
  (pieces va n).foldl (fun s p =>
    match s.xlat part die p.1 write with
    | .ok _ w => if w then s.watch part die p.1 p.2 (Config.openByte s.ctr 0).toNat write true else s
    | _ => s) s
/-- Bytes of a range that a partition's block on a die translates, whose memory is another die's than src. -/
def State.crossingFrom (s : State) (src part die : Nat) (va : W64) (n : Nat) (write : Bool) : Nat :=
  ((pieces va n).map fun p =>
    match s.xlat part die p.1 write with
    | .ok pa _ => if Config.memDie pa = src then 0 else p.2
    | _ => 0).sum
/-- Bytes of a range whose memory is another die's, which cross Deceg boundaries (R352). -/
def State.crossing (s : State) (part die : Nat) (va : W64) (n : Nat) (write : Bool) : Nat := s.crossingFrom die part die va n write
/-- The boundary bytes of an access that no filter watches: of a fetch, a save, a restore or a record (R260, R352). -/
def State.crossed (s : State) (part die : Nat) (va : W64) (n : Nat) (write : Bool) : State :=
  s.count part die 0x10 (s.crossing part die va n write)
/-- What an access that has translated leaves beside its bytes: watch records, and the count of boundary bytes (R260, R352). -/
def State.accessed (s : State) (part die : Nat) (va : W64) (n : Nat) (write : Bool) : State :=
  (s.watchRange part die va n write).count part die 0x10 (s.crossing part die va n write)
/-- Bytes read by an agent. -/
def State.agentRead (s : State) (part die : Nat) (va : W64) (n : Nat) : Except W64 (List Byte × State) :=
  (s.vread part die va n).map fun l => (l, s.accessed part die va n false)
/-- Bytes read by the device itself for a partition, which no filter watches (R260, R352). -/
def State.unitRead (s : State) (part die : Nat) (va : W64) (n : Nat) : Except W64 (List Byte × State) :=
  (s.vread part die va n).map fun l => (l, s.crossed part die va n false)
/-- Bytes written by it. -/
def State.unitWrite (s : State) (part die : Nat) (va : W64) (bs : List Byte) : Except W64 State :=
  (s.vwrite part die va bs).map fun s1 => s1.crossed part die va bs.length true
/-- Bytes written by an agent. -/
def State.agentWrite (s : State) (part die : Nat) (va : W64) (bs : List Byte) : Except W64 State :=
  (s.vwrite part die va bs).map fun s1 => s1.accessed part die va bs.length true

/-! ## The page-request queue (R258, R259) -/

/-- A partition's cores on a die. -/
def Partition.coresOn (p : Partition) (die : Nat) : Nat :=
  ((List.range 192).filter fun i => p.pr.cores.getLsbD (192 * die + i)).length
/-- The partitions with cores on a die. -/
def State.sharers (s : State) (die : Nat) : List (Nat × Partition) := s.parts.filter fun p => decide (0 < p.2.coresOn die)
/-- A partition's share of a die's entries. -/
def State.prqShare (s : State) (part die : Nat) : Nat :=
  let l := s.sharers die
  let c := l.foldl (fun n p => n + p.2.coresOn die) 0
  (512 - 8 * l.length) * (s.part part).coresOn die / c
/-- The overflow pool's size. -/
def State.prqOverflow (s : State) (die : Nat) : Nat :=
  let l := s.sharers die
  512 - 8 * l.length - l.foldl (fun n p => n + s.prqShare p.1 die) 0

/-- A die's entries in use. -/
def State.prqOn (s : State) (die : Nat) : List (Nat × PageReq) := s.prq.filter fun e => e.1 / 512 == die

/-- The pool a new request takes an entry from: share, overflow, reserve (R258). A partition without cores on the die, whose ports'
pages it translates, is none of those the entries are divided among, and has the overflow alone. -/
def State.prqPool (s : State) (part die : Nat) : Option Nat :=
  let l := s.prqOn die
  let used := fun (pool : Nat) (own : Bool) => (l.filter fun e => e.2.pool == pool && (!own || e.2.part == part)).length
  if used 0 true < s.prqShare part die then some 0
  else if used 1 false < s.prqOverflow die then some 1
  else if 0 < (s.part part).coresOn die ∧ used 2 true < 8 then some 2
  else none

/-- A page request: code 1 outstanding or queued, 2 refused (R167, R258); the entry written and its MSI sent (R259). -/
def State.askPage (s : State) (part die : Nat) (r : PageReq) (requester : Nat) (name : List Byte) : Nat × State :=
  if (s.prqOn die).any fun e => e.2.part == part && e.2.asid == r.asid && e.2.page == r.page && e.2.write == r.write then
    (1, s)
  else
    match s.prqPool part die, (List.range 512).find? fun e => (SMap.find s.prq (512 * die + e)).isNone with
    | some pool, some e =>
      let p := s.part part
      let a := ((s.txAt part die).prqbase.extractLsb' 14 50).toNat * 16384 + 32 * e
      let bytes := leBytes 8 r.page.toNat ++ leBytes 2 r.asid.toNat ++ [if r.write then 1 else 2] ++
        leBytes 1 requester ++ leBytes 4 p.prqSeq.toNat ++ pad 12 name ++ leBytes 4 0
      let s1 := s.setPart part { p with prqSeq := p.prqSeq + 1 }
      let s2 := { s1 with prq := s1.prq.put (512 * die + e) { r with part := part, pool := pool } }
      (1, (s2.count part die 0x30 1).putRecord part die [(a, bytes)] [.hart p.lowHart 5 e])
    | _, _ => (2, s.count part die 0x31 1)

/-- The first page of a range that is not present with the permission: none, or denied or absent with its address
(R167). -/
def State.pageScan (s : State) (part die : Nat) (va : W64) (n : Nat) (write : Bool) : Bool × Option W64 :=
  (pieces va n).foldl (fun (b : Bool × Option W64) p =>
    match s.xlat part die p.1 write with
    | .ok _ _ => b
    | .denied => (true, b.2)
    | .absent => (b.1, if b.2.isNone then some (p.1 &&& ~~~0xFFF) else b.2)) (false, none)

/-! ## The translation registers (R255, R256, R340) -/

/-- Pages 48 to 62 of the hypervisor window are reserved: a write there is ignored (R375). -/
def reservedPage (n : Nat) : Bool := decide (48 ≤ n) && decide (n < 63)

/-- A kernel write recorded in GTXW with the translation-write interrupt (R340, R341); held while the queue is full. The kernel reads
its registers back with their reserved bits zero (R6, R255). -/
def State.gtxwPush (s : State) (reg : Bool) (v : W64) (again : Instr) : State :=
  let part := s.frame.cur.part
  let p := s.part part
  if 16 ≤ p.gtxw.length then s.later (s.pcc + 1) s.frame.cur again
  else
    let b := s.txAt part s.frame.cur.die
    let b1 := if reg then { b with kinv := v &&& ~~~0xFFC } else { b with katp := v }
    ((s.setPart part { p with gtxw := p.gtxw ++ [(reg, v)] }).setTx part s.frame.cur.die b1).raiseIrq (.hart p.lowHart 8 0)

/-- TXATP written: used by every later access; under VIRT a kernel's write is recorded (R255, R340). -/
def execTxatpWrite (v : W64) (byKernel : Bool) (s : State) : Host.Outcome State Fault Refusal :=
  let part := s.frame.cur.part
  let die := s.frame.cur.die
  if byKernel && (s.part part).pr.virt then .next (s.gtxwPush false v (.txatpWrite v byKernel))
  else if reservedPage part then .next s
  else .next (s.setTx part die { s.txAt part die with txatp := v })

/-- TXINV written: BUSY is set; while BUSY the running invalidation becomes scope 0 (R256). The model's agents hold no
translation past a step, so BUSY clears in the next PCC cycle. -/
def execTxinvWrite (v : W64) (byKernel : Bool) (s : State) : Host.Outcome State Fault Refusal :=
  let part := s.frame.cur.part
  let die := s.frame.cur.die
  let b := s.txAt part die
  if byKernel && (s.part part).pr.virt then .next (s.gtxwPush true v (.txinvWrite v byKernel))
  else if reservedPage part then .next s
  else
    .next ((s.setTx part die { b with txinv := if b.busy then 0 else v &&& ~~~0xFFC, busy := true }).later (s.pcc + 1)
      s.frame.cur .txInvalidationDone)

/-- The invalidation completes: BUSY clears (R256). -/
def execTxInvalidationDone (s : State) : Host.Outcome State Fault Refusal :=
  let part := s.frame.cur.part
  let die := s.frame.cur.die
  .next (s.setTx part die { s.txAt part die with busy := false })

end Sys2Proof.Machine
end

