-- ==== Sys2Proof/Machine/Fetch.lean ====
section
/-!
DEFINITION. Code segments and the loop buffer (R63 to R67, R80 to R83), and the metadata stream (R84).
-/
namespace Sys2Proof.Machine

/-! ## Segments in memory (R80, R81) -/

/-- The fixed part of a segment's header: NEXT, BASE, LEN word, BODY, CHECK, reserved word (R80). -/
structure SegHead where
  next : W64
  base : W64
  len : Nat
  body : Nat
  check : W32
  rsv : Nat
  deriving DecidableEq, Repr

/-- A segment header read from memory; the address of a fault. An address of NEXT or of a launch's first segment that is no multiple of
64 is read as it is: DESIGN CHOICE, unsafe (assumption 81). -/
def State.segHead (s : State) (part die : Nat) (va : W64) : Except W64 SegHead :=
  (s.vread part die va 32).map fun l =>
    { next := BitVec.ofNat 64 (leNat l), base := BitVec.ofNat 64 (leNat (l.drop 8)), len := leNat ((l.drop 16).take 4),
      body := leNat ((l.drop 20).take 4), check := BitVec.ofNat 32 (leNat ((l.drop 24).take 4)),
      rsv := leNat (l.drop 28) }

/-- Packets a header covers: LEN[7:0] (R80). A LEN[7:0] of 0 is entered at its BASE, where its error is raised (R83): DESIGN
CHOICE, unsafe (assumption 70). -/
def SegHead.count (h : SegHead) : Nat := max 1 (h.len % 256)
/-- The packet part of a code address (R66). -/
def pktOf (a : W64) : W64 := a &&& ~~~0x1F
/-- The word index of a code address (R66). -/
def wiOf (a : W64) : Nat := (a.extractLsb' 0 4).toNat
/-- Whether a code address lies in the packets from a base (R80). -/
def covers (base : W64) (count : Nat) (a : W64) : Bool :=
  decide (base.toNat ≤ (pktOf a).toNat) && decide ((pktOf a).toNat < base.toNat + 32 * count)

/-- The ten words of a packet read from a bit stream, with the stream left; none where it ends early (R81). -/
def takeWords (dict : List Word24) (limit : Nat) : Nat → Nat → Nat → List Word24 → Option (List Word24 × Nat × Nat)
  | 0, bits, used, acc => some (acc.reverse, bits, used)
  | n + 1, bits, used, acc =>
    if bits % 2 = 0 then
      if used + 7 ≤ limit then takeWords dict limit n (bits / 128) (used + 7) (dict.getD (bits / 2 % 64) 0 :: acc)
      else none
    else if used + 25 ≤ limit then
      takeWords dict limit n (bits / 2 ^ 25) (used + 25) (BitVec.ofNat 24 (bits / 2) :: acc)
    else none

/-- The packets of a body's bit stream; none where it ends early (R81). -/
def takePackets (dict : List Word24) (limit : Nat) : Nat → Nat → Nat → List Packet → Option (List Packet × Nat × Nat)
  | 0, bits, used, acc => some (acc.reverse, bits, used)
  | n + 1, bits, used, acc =>
    if used + 10 ≤ limit then
      match takeWords dict limit 10 (bits / 1024) (used + 10) [] with
      | some (ws, b, u) => takePackets dict limit n b u (Packet.make (BitVec.ofNat 10 bits) ws :: acc)
      | none => none
    else none

/-- One byte into a CRC-32C register (R80). -/
def crcByte (c : W32) (b : Nat) : W32 :=
  (List.range 8).foldl (fun c _ => if c.getLsbD 0 then (c >>> 1) ^^^ 0x82F63B78 else c >>> 1) (c ^^^ BitVec.ofNat 32 b)
/-- CRC-32C of a byte list (R80). -/
def crc32c (l : List Nat) : W32 := ~~~(l.foldl crcByte (BitVec.allOnes 32))
/-- The 32 bytes of a packet, lowest first (R63). -/
def packetBytes (p : Packet) : List Nat := (List.range 32).map fun i => p.toNat / 256 ^ i % 256

/-- A segment expanded from memory (R80 to R83): malformed ones carry the code-integrity error, one whose bytes do not
translate the code-translation error. A BASE that is no multiple of 32 makes the segment malformed: DESIGN CHOICE, unsafe
(assumption 81). -/
def State.expand (s : State) (part die : Nat) (va : W64) : Segment :=
  match s.segHead part die va with
  | .error e => { va := va, err := some (Err.codeTranslation, e), valid := true }
  | .ok h =>
    let sg : Segment := { va := va, base := h.base, next := h.next, count := h.count, valid := true }
    let bad := { sg with err := some (Err.codeIntegrity, va) }
    if h.len = 0 ∨ 128 < h.len ∨ h.rsv ≠ 0 ∨ h.base.extractLsb' 0 5 ≠ 0 then bad
    else
      match s.vread part die (va + 0x20) 192, s.vread part die (va + 0xE0) h.body with
      | .ok d, .ok b =>
        let dict := (List.range 64).map fun j => BitVec.ofNat 24 (leNat ((d.drop (3 * j)).take 3))
        match takePackets dict (8 * h.body) h.len (leNat b) 0 [] with
        | none => bad
        | some (ps, rest, used) =>
          if rest ≠ 0 ∨ used + 8 ≤ 8 * h.body ∨ crc32c (ps.flatMap packetBytes) ≠ h.check then bad
          else { sg with pkts := ps }
      | .error e, _ => { sg with err := some (Err.codeTranslation, e) }
      | _, .error e => { sg with err := some (Err.codeTranslation, e) }

/-- A relocation kind by its code (R226). -/
def RelocKind.ofCode (n : Nat) : Option RelocKind :=
  match n with
  | 1 => some .code64
  | 2 => some .vaddr64
  | 3 => some .core10
  | 4 => some .live24
  | 5 => some .group8
  | _ => none
/-- A relocation entry from its 16 bytes: offset, kind, section index, two reserved bytes of zero, symbol index (R226). -/
def readReloc (l : List Byte) : Option Reloc :=
  let w := fun o n => leNat ((l.drop o).take n)
  let sym := w 12 4
  if w 10 2 ≠ 0 then none
  else (RelocKind.ofCode (w 8 1)).map fun k => { off := w 0 8, kind := k, sect := w 9 1, sym := if sym = 0xFFFFFFFF then none else some sym }
/-- An object's relocation entries; none where the table is no whole number of entries or one of them is malformed. -/
def Obj.entries (o : Obj) : Option (List Reloc) :=
  if o.table.length % 16 ≠ 0 then none
  else (List.range (o.table.length / 16)).foldr (fun i acc =>
    match readReloc ((o.table.drop (16 * i)).take 16), acc with
    | some r, some l => some (r :: l)
    | _, _ => none) (some [])
def Obj.relocs (o : Obj) : List Reloc := o.entries.getD []
/-- Whether an entry patches an item of the section its kind is for, and names a main-memory symbol where its kind needs one (R226). -/
def Obj.relocOk (o : Obj) (r : Reloc) : Bool :=
  match r.kind with
  | .code64 => r.sect == o.dataSec
  | .core10 => r.sect == o.dataSec
  | .vaddr64 => r.sect == o.dataSec && ((r.sym.bind fun n => SMap.find o.syms n).isSome)
  | .live24 => r.sect == o.codeSec
  | .group8 => r.sect == o.codeSec
/-- Whether an object's relocation table can be applied. -/
def Obj.bindable (o : Obj) : Bool := (o.entries.map fun l => l.all o.relocOk).getD false

/-- A code word with a relocation of its item applied: the live-list table's base index added; a source group's number is the
launch's group of the same number (R226, R292). -/
def relocWord (r : RelocKind) (base : BitVec 24) (w : Word24) : Word24 :=
  match r with
  | .live24 => w + base
  | _ => w
/-- A packet with its word i replaced (R63). -/
def setPacketWord (p : Packet) (i : Nat) (w : Word24) : Packet :=
  (p &&& ~~~(BitVec.ofNat 256 (0xFFFFFF * 2 ^ (16 + 24 * i)))) ||| BitVec.ofNat 256 (w.toNat * 2 ^ (16 + 24 * i))
/-- A packet with the relocations of its code words applied; off: its offset in the code section. -/
def bindPacket (p : Packet) (o : Obj) (off : Nat) : Packet :=
  o.relocs.foldl (fun p r =>
    if r.kind = .live24 ∧ off + 2 ≤ r.off ∧ r.off < off + 32 then
      let i := (r.off - off - 2) / 3
      setPacketWord p i (relocWord r.kind o.liveBase (Packet.word p i))
    else p) p
/-- A segment of a launch's code bound to its placement: the loader binds the code of the object, whose packets stand in the
image one after another from its base code address (R292). -/
def Segment.bindCode (g : Segment) (l : Launch) : Segment :=
  if l.obj.table.isEmpty then g
  else { g with pkts := g.pkts.zipIdx.map fun p => bindPacket p.1 l.obj ((g.base - l.codeBase).toNat + 32 * p.2) }
/-- A segment of a context's code as its prefetch engine expands it. -/
def State.expandFor (s : State) (core ctx : Nat) (va : W64) : Segment :=
  let g := s.expand (s.partOfCore core) (dieOf core) va
  if ctx == handlerCtx then g
  else match s.launchAt core with
    | some l => g.bindCode l
    | none => g

/-- Following a chain to the segment that covers an address (R82). -/
inductive Found where
  | at_ (va : W64)
  | missing
  | fault (va : W64)
  deriving DecidableEq, Repr

def State.follow (s : State) (part die : Nat) (a : W64) : Nat → W64 → Found
  | 0, _ => .missing
  | n + 1, va =>
    if va = 0 then .missing
    else
      match s.segHead part die va with
      | .error e => .fault e
      | .ok h => if covers h.base h.count a then .at_ va else State.follow s part die a n h.next

/-- The headers of a chain that are read on the way to a segment, its own apart. -/
def State.headsTo (s : State) (part die : Nat) (stop : W64) : Nat → W64 → List W64
  | 0, _ => []
  | n + 1, va =>
    if va = stop ∨ va = 0 then []
    else
      match s.segHead part die va with
      | .error _ => []
      | .ok h => va :: State.headsTo s part die stop n h.next

/-- The first segment of the cursor's context's code: the launch's, or the handler image's (R284, R318). -/
def State.chain (s : State) (core ctx : Nat) : W64 :=
  if ctx == handlerCtx then (s.part (s.partOfCore core)).hcode
  else
    match s.launchAt core with
    | some l => l.lr.code
    | none => 0

/-! ## The loop buffer (R82) -/

/-- The half that holds a code address: the current one first. -/
def Prefetch.residentHalf (f : Prefetch) (a : W64) : Option Bool :=
  let has := fun (g : Segment) => g.valid && covers g.base g.count a
  let cur := if f.cur then f.half1 else f.half0
  let oth := if f.cur then f.half0 else f.half1
  if has cur then some f.cur else if has oth then some (!f.cur) else none
def Prefetch.half (f : Prefetch) (h : Bool) : Segment := if h then f.half1 else f.half0
def Prefetch.setHalf (f : Prefetch) (h : Bool) (g : Segment) : Prefetch :=
  if h then { f with half1 := g } else { f with half0 := g }

/-- A packet of an expanded segment. -/
def Segment.packet (g : Segment) (a : W64) : Packet :=
  g.pkts.getD (((pktOf a).toNat - g.base.toNat) / 32) 0

/-- The segment a context's replay keeps for a code address, or for a virtual address: the last that the phase has expanded and left,
or read for a check, which the replay does not read again (R82). -/
def Ctx.keptAt (x : Ctx) (a : W64) : Option Segment :=
  if x.replay then x.kept.reverse.find? fun g => covers g.base g.count a else none
def Ctx.keptVa (x : Ctx) (va : W64) : Option Segment :=
  if x.replay then x.kept.reverse.find? fun g => g.va == va else none

/-- Whether a code address may be the target of a transfer (R67); none where it may. A malformed segment's START is not
examined; the target is looked for in the loop buffer, then along the chain. A target in neither half is read from memory at the
issue of the transferring bundle, and a translation fault met there is reported on that bundle: DESIGN CHOICE, unsafe
(assumption 69). -/
def State.targetError (s : State) (core ctx : Nat) (a : W64) : Option (Nat × W64) :=
  let part := s.partOfCore core
  let die := dieOf core
  let x := (s.coreAt core).ctx ctx
  let f := x.fetch
  let startOk := fun (g : Segment) =>
    match g.err with
    | some (c, d) => if c = Err.codeIntegrity then none else some (c, d)
    | none => if (g.packet a).start (wiOf a) then none else some (Err.branchTarget, a)
  if a.getLsbD 4 || decide (9 < wiOf a) then some (Err.branchTarget, a)
  else
    match f.residentHalf a with
    | some h => startOk (f.half h)
    | none =>
      match x.keptAt a with
      | some g => startOk g
      | none =>
        match s.follow part die a 65536 (s.chain core ctx) with
        | .missing => some (Err.branchTarget, a)
        | .fault e => some (Err.codeTranslation, e)
        | .at_ va => startOk (s.expandFor core ctx va)

/-- An expansion asked of the cursor's context's prefetch engine, after a free latency (R82). -/
def State.askSegment (s : State) (va : W64) (current : Bool) : State :=
  let d := s.draw
  let x := d.2.ctx
  d.2.setCtx { x with fetch := { x.fetch with
    reqs := [{ va := va, current := current, due := s.pcc + Config.segmentLatency d.1 }] } }

/-- The successor of the current half's segment is expanded into the other half; a NEXT of 0 leaves it (R82). -/
def State.askSuccessor (s : State) : State :=
  let f := s.ctx.fetch
  let g := f.half f.cur
  if g.next = 0 ∨ g.err.isSome then s.setCtx { s.ctx with fetch := { f with reqs := [] } } else s.askSegment g.next false

/-- Bytes of a segment in memory (R80): header, dictionary and body. -/
def State.segBytes (s : State) (part die : Nat) (va : W64) : Nat :=
  match s.segHead part die va with
  | .ok h => 0xE0 + h.body
  | .error _ => 32
/-- The prefetch engine expands a segment whose bytes have arrived into the half that is not current (R82); the segment it
replaces is kept for a replay of the phase. With nothing due it does nothing, nor while its partition gives way to others (R345). The
bytes it reads from another die's memory are counted (R352). -/
def State.expandDue (s : State) : State :=
  let x := s.ctx
  match x.fetch.reqs with
  | [] => s
  | q :: rest =>
    let part := s.partOfCore s.frame.cur.core
    let die := dieOf s.frame.cur.core
    let n := s.segBytes part die q.va
    let old := x.fetch.half (!x.fetch.cur)
    let x1 := if old.valid then { x with kept := x.kept ++ [old] } else x
    let again := x1.keptVa q.va
    if s.pcc < q.due || (again.isNone && s.givesWayOn part die q.va n) then s
    else
      let g := { again.getD (s.expandFor s.frame.cur.core s.frame.cur.ctx q.va) with ready := s.core.cyc }
      let f := { x.fetch.setHalf (!x.fetch.cur) g with reqs := rest }
      let s1 := if again.isSome then s else s.crossed part die q.va n false
      if q.current then (s1.setCtx { x1 with fetch := { f with cur := !f.cur } }).askSuccessor
      else s1.setCtx { x1 with fetch := f }

/-- SEGMENT_EXPANSION (R82). -/
def execSegmentExpansion (s : State) : Host.Outcome State Fault Refusal := .next s.expandDue

/-- What fetch gives at the cursor's context's PC: a packet, a stall, or an error (R65, R82, R83). -/
inductive Fetched where
  | packet (p : Packet)
  | stall
  | error (code : Nat) (detail : W64)
  deriving DecidableEq, Repr

/-- Fetch at the PC, moving to the other half or asking for an expansion where the packet is not in the current half (R65, R82,
R83); for a segment with LEN = 0 see SegHead.count (assumption 70). -/
def State.fetch (s : State) : Fetched × State :=
  let x := s.ctx
  let a := x.cur.pc
  let f := x.fetch
  match f.residentHalf a with
  | some h =>
    let s1 := if h = f.cur then s else (s.setCtx { x with fetch := { f with cur := h, reqs := [] } }).askSuccessor
    let g := f.half h
    match g.err with
    | some (c, d) => (.error c d, s1)
    | none =>
      if s.core.cyc < g.ready + ((pktOf a).toNat - g.base.toNat) / 32 then (.stall, s1) else (.packet (g.packet a), s1)
  | none =>
    if f.reqs.any (·.current) then (.stall, s)
    else if (x.keptAt a).isSome then (.stall, s.askSegment ((x.keptAt a).map (·.va) |>.getD 0) true)
    else
      match s.follow (s.partOfCore s.frame.cur.core) (dieOf s.frame.cur.core) a 65536
          (s.chain s.frame.cur.core s.frame.cur.ctx) with
      | .missing => (.error Err.branchTarget a, s)
      | .fault e => (.error Err.codeTranslation e, s)
      | .at_ va =>
        let heads := s.headsTo (s.partOfCore s.frame.cur.core) (dieOf s.frame.cur.core) va 65536 (s.chain s.frame.cur.core s.frame.cur.ctx)
        (.stall, (heads.foldl (fun (s : State) h => s.crossed (s.partOfCore s.frame.cur.core) (dieOf s.frame.cur.core) h 32 false)
          s).askSegment va true)

/-! ## The metadata stream (R84) -/

/-- The metadata word at MPC: 0 while no stream is open; none where it is not yet buffered. The mark tells a translation
fault. -/
def CtxArch.metaWord (a : CtxArch) (buf : List (W32 × Bool)) : Option (W32 × Bool) :=
  if a.mpc = 0 then some (0, false) else buf.head?

/-- The prefetch engine fetches the next metadata word into the buffer of 256, marking one whose translation faults (R84); not while
its partition gives way to others (R345). -/
def State.prefetchMeta (s : State) : State :=
  let x := s.ctx
  let part := s.partOfCore s.frame.cur.core
  let die := dieOf s.frame.cur.core
  match x.metaAsk with
  | none => s
  | some va =>
    if s.givesWay part die va then s
    else
      let w : W32 × Bool :=
        match s.vreadLe part die va 4 with
        | .ok n => (BitVec.ofNat 32 n, false)
        | .error _ => (0, true)
      (s.crossed part die va 4 false).setCtx { x with fetch := { x.fetch with mdbuf := x.fetch.mdbuf ++ [w] } }

/-- METADATA_PREFETCH (R84). -/
def execMetadataPrefetch (s : State) : Host.Outcome State Fault Refusal := .next s.prefetchMeta

end Sys2Proof.Machine
end

