-- ==== Sys2Proof/Machine/Flags.lean ====
section
/-!
DEFINITION. The flags register: raising flags into the phase accumulator, arithmetic traps, and the update at a flip
(R19, R20, R101, R103).
-/
namespace Sys2Proof.Machine

/-- The flags a launch's trap enables select: CTRL[9:5] enable SAT, NX, UF, OF, NV (R103, R285). -/
def trapEnables (ctrl : W32) : Flags :=
  ((ctrl.extractLsb' 5 5).zeroExtend 32)

/-- The trap enables of a context: the launch's for a user context, none for the handler (R103). -/
def State.enablesOf (s : State) (core ctx : Nat) : Flags :=
  if ctx == handlerCtx then 0
  else
    match s.launchAt core with
    | some l => trapEnables l.lr.ctrl
    | none => 0

/-- Flags raised in a context's phase: into the accumulator, and an arithmetic trap recorded for the enabled ones. -/
def CtxArch.raiseFlags (a : CtxArch) (fl enables : Flags) : CtxArch :=
  { a with regs := { a.regs with flg := a.regs.flg.raise fl }, arith := a.arith ||| (fl &&& enables) }

/-- Flags raised in the cursor's context. -/
def State.raiseFlags (s : State) (fl : Flags) : State :=
  s.setArch (s.arch.raiseFlags fl (s.enablesOf s.frame.cur.core s.frame.cur.ctx))

/-- FLG at the flip that ends a phase (R20): its faces change only when a flag was raised or cleared. -/
def FlgReg.flip (f : FlgReg) : FlgReg :=
  if f.acc ≠ 0 ∨ f.clr ≠ 0 then
    { vis := (f.vis &&& ~~~f.clr) ||| f.acc, hid := f.vis, wr := false, acc := 0, clr := 0 }
  else { f with wr := false, acc := 0, clr := 0 }

end Sys2Proof.Machine
end

