-- ==== Sys2Proof/Machine/Operands.lean ====
section
/-!
DEFINITION. The operand forms of a slot: what a source ID reads and which slots may read it, what a destination ID
writes and which slots may write it, operand ports, and the port and extended forms of a trigger (R69 to R79, R113).
Every source is read in the bundle's first cycle (R55): a write of the bundle goes to a hidden face, what it does to MPC, the
bank binding and HSEL takes effect at its end, and the later sub-bundles of a split bundle see the ports as that cycle saw them.
-/
namespace Sys2Proof.Machine

/-! ## Sources (R74, R76) -/

/-- Whether a slot reads or writes a vector register, by the bank binding (R26, R74): slots 4 and 5 always, slot 7 reads
only, slots 2, 3 at home, slot 6 when lent. -/
def bankReach (bind : BitVec 4) (slot n : Nat) (wr : Bool) : Bool :=
  let lent := bind.getLsbD (n / 8)
  match slot with
  | 2 => decide (n < 16) && !lent
  | 3 => decide (16 ≤ n) && !lent
  | 4 => true
  | 5 => true
  | 6 => lent
  | 7 => !wr
  | _ => false

/-- Whether a slot may name a source ID, in a user or handler context (R74, R76). The handler's own registers are s0 to
s15, v0 to v3 and p0 to p3, its vectors reachable as VB0 at home is. -/
def srcLegal (handler : Bool) (bind : BitVec 4) (slot : Nat) (id : BitVec 9) (imm : Nat) : Bool :=
  let n := id.toNat
  if n < 0x40 then !handler || decide (n < 16)
  else if n < 0x50 then !handler
  else if n < 0x70 then
    if handler then decide (n < 0x54) && (slot == 2 || slot == 4 || slot == 5 || slot == 7)
    else bankReach bind slot (n - 0x50) false
  else if n < 0x80 then !handler || decide (n < 0x74)
  else if n < 0x88 then !handler && decide (2 ≤ slot) && slot != 7
  else if n < 0x8C then !handler && (slot == 0 || slot == 1 || slot == 7)
  else if n < 0x90 then !handler && (slot == 0 || slot == 2 || slot == 3)
  else if n < 0x9B then true
  else if n = 0x9B then decide (0 < imm)
  else if n = 0x9C then decide (1 < imm)
  else if n < 0xA6 then true
  else if n = 0xA6 then !handler
  else if n < 0xA8 then false
  else if n < 0xAC then !handler
  else if 0x100 ≤ n && n ≤ 0x102 then handler
  else decide (0x1C0 ≤ n)

/-- A value with a width below 2,048: zero-extended, tag NONE (R70). -/
def plain (n : Nat) : TVal := { val := BitVec.ofNat 2048 n, tag := 0 }
/-- A signed value, sign-extended, tag NONE (R70). -/
def signedVal {w : Nat} (v : BitVec w) : TVal := { val := v.signExtend 2048, tag := 0 }

/-- Row i of an accumulator face (R198). -/
def tileRow (t : Tile) (i : Nat) : W2048 := t.extractLsb' (2048 * i) 2048

/-- OPC: the point last reached with no window open, and whether one is (R22, R243). -/
def Core.opc (k : Core) : Nat := k.pwr.op + (if k.pwr.window.isSome then 8 else 0)

/-- A register's two faces by ID, as vector-width values, with the written bit (R76, R77). -/
def faceById (k : Core) (a : CtxArch) (id : Nat) (tiles : Nat) : Option (TVal × TVal × Bool) :=
  let r := a.regs
  if id < 0x40 then
    let f := r.getS id
    some (plain f.vis.toNat, plain f.hid.toNat, f.wr)
  else if id < 0x50 then
    let f := r.getA (id - 0x40)
    some (plain f.vis.toNat, plain f.hid.toNat, f.wr)
  else if id < 0x70 then
    let f := r.getV (id - 0x50)
    some (f.vis, f.hid, f.wr)
  else if id < 0x80 then
    let f := r.getP (id - 0x70)
    some (plain f.vis.toNat, plain f.hid.toNat, f.wr)
  else if id < 0x88 then
    let f := r.getM (id - 0x80)
    some (plain f.vis.toNat, plain f.hid.toNat, f.wr)
  else if id < 0x8C then
    let f := r.getNt (id - 0x88)
    some (plain f.vis.toNat, plain f.hid.toNat, f.wr)
  else if id < 0x90 then
    let f := r.getAm (id - 0x8C)
    some (plain f.vis.toNat, plain f.hid.toNat, f.wr)
  else if id = 0x9D then some (plain r.flg.vis.toNat, plain r.flg.hid.toNat, r.flg.wr)
  else if 0xD0 ≤ id ∧ id < 0xE0 then
    let f := SMap.get { vis := 0, hid := 0 } (k.eng (8 ≤ id - 0xD0)).mp ((id - 0xD0) % 8)
    some (plain f.vis.toNat, plain f.hid.toNat, f.wr)
  else if 0xC0 ≤ id ∧ id - 0xC0 < tiles then
    let f := r.getAcc (id - 0xC0)
    some ({ val := 0, tag := f.vis.tag }, { val := 0, tag := f.hid.tag }, f.wr)
  else none

/-- A status or result port by ID (R21, R22, R76); MPC included. -/
def portById (s : State) (core ctx : Nat) (a : CtxArch) (id : Nat) : TVal :=
  let k := s.coreAt core
  if 0x90 ≤ id ∧ id < 0x9B then a.port id
  else if id = 0x9E then plain a.sclk.toNat
  else if id = 0x9F then plain (s.pcc % 2 ^ 64)
  else if id = 0xA0 then plain ctx
  else if id = 0xA1 then plain core
  else if id = 0xA2 then plain k.rows.floor
  else if id = 0xA3 then plain k.opc
  else if id = 0xA4 then plain k.me0.sqd.toNat
  else if id = 0xA5 then plain k.me1.sqd.toNat
  else if id = 0xA6 then plain a.mpc.toNat
  else plain 0

/-- The HX ports: the served context's state selected by HSEL (R77). 0 visible, 1 hidden, 2 written bit and tags. An mp register
of an engine that another context holds reads zero: DESIGN CHOICE, unsafe (assumption 66). With an accumulator's row comes the tag of
the tile's face: DESIGN CHOICE, unsafe (assumption 82). -/
def hxRead (s : State) (which : Nat) : TVal :=
  let k := s.core
  match k.svc.served with
  | none => plain 0
  | some u =>
    let a := (k.ctx u).cur
    let h := s.arch.hsel
    let sel := (h.extractLsb' 0 9).toNat
    let row := (h.extractLsb' 9 6).toNat
    let tiles := s.tiles
    if sel = 0x9B ∨ sel = 0x9C then plain 0
    else if 0xD0 ≤ sel ∧ sel < 0xE0 ∧ (k.eng (8 ≤ sel - 0xD0)).holder ≠ BitVec.ofNat 3 u then plain 0
    else
      match faceById k a sel tiles with
      | some (vis, hid, wr) =>
        if which = 2 then plain (wr.toNat + 16 * vis.tag.toNat + 256 * hid.tag.toNat)
        else if 0xC0 ≤ sel ∧ sel < 0xD0 then
          let f := a.regs.getAcc (sel - 0xC0)
          if which = 0 then { val := tileRow f.vis.val row, tag := f.vis.tag }
          else { val := tileRow f.hid.val row, tag := f.hid.tag }
        else if which = 0 then vis else hid
      | none =>
        if which = 2 then plain 0
        else if sel ≤ 0xA6 then portById s s.frame.cur.core u a sel
        else plain 0

/-- A long immediate's value: the raw word, sign-extended (R71). -/
def State.li (s : State) (j : Nat) : W32 := (s.frame.li.getD j 0).signExtend 32

/-- The value a source ID reads in the present state (R76): the visible face of a register, a port's held value, an
immediate. -/
def State.srcNow (s : State) (id : BitVec 9) : TVal :=
  let n := id.toNat
  if n < 0x90 then ((faceById s.core s.arch n 0).map (·.1)).getD {}
  else if n = 0x9B then signedVal (s.li 0)
  else if n = 0x9C then signedVal (s.li 1)
  else if n = 0x9D then plain s.arch.regs.flg.vis.toNat
  else if n ≤ 0xA6 then portById s s.frame.cur.core s.frame.cur.ctx s.arch n
  else if 0xA8 ≤ n ∧ n < 0xAC then plain (s.arch.regs.getGrp (n - 0xA8)).toNat
  else if n = 0x100 then hxRead s 0
  else if n = 0x101 then hxRead s 1
  else if n = 0x102 then hxRead s 2
  else if 0x1C0 ≤ n then signedVal (BitVec.ofInt 32 (Int.ofNat n - 0x1E0))
  else {}

/-- The value a source ID reads: what the bundle's first cycle read, where a split bundle has kept it (R55). -/
def State.srcVal (s : State) (id : BitVec 9) : TVal := (SMap.find s.frame.srcs id.toNat).getD (s.srcNow id)
/-- The sources whose values may change between the cycles of a split bundle: the governor's p15 and the ports. -/
def State.keepSrcs (s : State) : SMap TVal :=
  (0x7F :: (List.range 0x17).map (0x90 + ·)).map fun n => (n, s.srcNow (BitVec.ofNat 9 n))

/-- The scratch, the Larder and the rows as a bundle's reads in its source cycle see them (R55). -/
def State.seenScratch (s : State) : Memory := (s.frame.seen.map (·.scratch)).getD s.core.scratch
def State.seenLarder (s : State) : Memory := (s.frame.seen.map (·.larder)).getD s.core.larder
def State.seenRows (s : State) : Rows :=
  match s.frame.seen with
  | some m => { s.core.rows with errs := m.errs }
  | none => s.core.rows
/-- What the later sub-bundles of a split bundle are to see. -/
def State.keepSeen (s : State) : SeenMem := { scratch := s.core.scratch, larder := s.core.larder, errs := s.core.rows.errs }

/-- Whether the cursor's slot may name a source ID. -/
def State.srcOk (s : State) (id : BitVec 9) : Bool :=
  srcLegal s.inHandler s.arch.bind s.frame.cur.slot id s.frame.li.length

/-! ## Guards (R69) -/

/-- Whether a guard lets its slot execute: vis(pG) when N = 0, its complement when N = 1. -/
def State.guard (s : State) (g : Guard) : Bool := (s.arch.regs.getP g.g.toNat).vis != g.n

/-! ## Operand ports (R47, R78) -/

/-- The key of an operand port: AU is one unit for slots 0 and 1; every other port is its slot's. -/
def portKey (slot : Nat) (id : Nat) : Nat :=
  if slot ≤ 1 ∧ (id = 0x102 ∨ id = 0x103) then id else 512 * slot + id

/-- An operand port's width (R113, R136, R155, R169, R191). -/
def portWidth (slot id : Nat) : Nat :=
  match slot with
  | 0 => if id ≤ 0x101 then 32 else 64
  | 1 => if id ≤ 0x101 then 32 else 64
  | 2 => if id = 0x102 then 256 else 2048
  | 3 => if id = 0x102 then 256 else 2048
  | 4 => if id = 0x100 then 2048 else if id = 0x101 then 64 else 256
  | 5 => if id = 0x100 then 2048 else if id = 0x101 then 64 else 256
  | _ => 64

/-- A value narrowed to w bits; a narrower destination takes no tag (R70). -/
def TVal.narrow (v : TVal) (w : Nat) : TVal :=
  if w = 2048 then v else { val := (v.val.setWidth w).setWidth 2048, tag := 0 }

/-- The value an operand port of the cursor's slot holds. -/
def State.opnd (s : State) (id : Nat) : TVal := SMap.get {} s.arch.opnd (portKey s.frame.cur.slot id)

/-- A move to an operand port of the cursor's slot (R47). -/
def State.setOpnd (s : State) (id : Nat) (v : TVal) : State :=
  s.setArch { s.arch with opnd := s.arch.opnd.put (portKey s.frame.cur.slot id)
                                    (v.narrow (portWidth s.frame.cur.slot id)) }

/-! ## Destinations of a move (R70, R74, R76, R78) -/

/-- Whether a slot may name a destination ID that is not a trigger (R74, R78, R12). -/
def dstLegal (handler : Bool) (bind : BitVec 4) (slot : Nat) (id : BitVec 9) : Bool :=
  let n := id.toNat
  if n < 0x40 then (!handler || decide (n < 16)) && (slot ≤ 1 || slot == 4 || slot == 5 || slot == 7)
  else if n < 0x50 then !handler && (slot ≤ 1 || slot == 4 || slot == 5 || slot == 7)
  else if n < 0x70 then
    if handler then decide (n < 0x54) && (slot == 2 || slot == 4 || slot == 5)
    else bankReach bind slot (n - 0x50) true
  else if n < 0x80 then slot == 0 && n != 0x7F && (!handler || decide (n < 0x74))
  else if n < 0x88 then !handler && (slot == 2 || slot == 3)
  else if n < 0x8C then !handler && slot == 0
  else if n < 0x90 then !handler && (slot == 2 || slot == 3)
  else if n = 0x9D then slot == 0
  else if n = 0x106 then slot == 0 && handler
  else if 0x1B0 ≤ n then !handler && isPort (Cls.ofSlot slot) id
  else isPort (Cls.ofSlot slot) id

/-- A move's write of an mp register: the holder's, on the hidden face (R11, R78, R192); the phase keeps the register as it
stood, for a rollback (R60). -/
def State.writeMp (s : State) (e : Bool) (i : Nat) (v : W64) : State :=
  let k := s.core
  let g := k.eng e
  if g.holder ≠ BitVec.ofNat 3 s.frame.cur.ctx then s.raise Err.engineHolder (BitVec.ofNat 64 e.toNat)
  else
    let f := SMap.get { vis := 0, hid := 0 } g.mp i
    let x := s.ctx
    let key := 8 * e.toNat + i
    let y := if (SMap.find x.mpOld key).isSome then x else { x with mpOld := x.mpOld.put key f }
    ((s.setCore (k.setEng e { g with mp := g.mp.put i (f.land v) })).setCtx y).modRegs fun r => r.dw f.wr

/-- A move's write of a vector register: a user context's writes the whole of the row that holds the hidden face (R28,
R249). -/
def State.writeV (s : State) (n : Nat) (v : TVal) : State :=
  let s1 := s.modRegs fun r => r.landV n v
  let k := s1.core
  if k.rows.errs = [] || s.inHandler then s1
  else s1.setCore { k with rows := k.rows.clearRow (vecRow s.frame.cur.ctx n + (!(s.arch.regs.getV n).sw).toNat) }

/-- A value delivered to a destination that is not a trigger (R70). -/
def State.writeDst (s : State) (id : BitVec 9) (v : TVal) : State :=
  let n := id.toNat
  if n < 0x40 then s.modRegs fun r => r.landS n (v.val.setWidth 32)
  else if n < 0x50 then s.modRegs fun r => r.landA (n - 0x40) (v.val.setWidth 64)
  else if n < 0x70 then s.writeV (n - 0x50) v
  else if n < 0x80 then s.modRegs fun r => r.landP (n - 0x70) (v.val.getLsbD 0)
  else if n < 0x88 then s.modRegs fun r => r.landM (n - 0x80) (v.val.setWidth 256)
  else if n < 0x8C then s.modRegs fun r => r.landNt (n - 0x88) (v.val.setWidth 64)
  else if n < 0x90 then s.modRegs fun r => r.landAm (n - 0x8C) (v.val.setWidth 32)
  else if n = 0x9D then s.modRegs fun r => r.clearFlg (v.val.setWidth 32)
  else if n = 0x106 then { s with frame := { s.frame with newHsel := some (v.val.setWidth 32 &&& 0x7FFF) } }
  else if 0x1B0 ≤ n then s.writeMp (0x1B8 ≤ n) (n % 8) (v.val.setWidth 64)
  else s.setOpnd n v

/-! ## Triggers (R72, R79) -/

/-- A port-form trigger: nothing where the guard is false (R69); an illegal bundle where the slot may not read the
source; else the operation with the value moved as t. -/
def State.trigger (s : State) (w : Slot) (f : TVal → State → State) : State :=
  if s.guard w.gd then
    if s.srcOk w.src then f (s.srcVal w.src) s else s.raiseSlot Err.illegalBundle
  else s

/-- The extension word's fields: reserved bits, YSRC, XSRC (R72). -/
def extY (w : Word24) : BitVec 9 := w.extractLsb' 9 9
def extX (w : Word24) : BitVec 9 := w.extractLsb' 0 9
/-- An extension word's checks: reserved bits zero, legal sources that are not LI0 or LI1 (R72, R85). -/
def State.extOk (s : State) (w : Word24) : Bool :=
  w.extractLsb' 18 6 == 0 && s.srcOk (extX w) && s.srcOk (extY w) &&
    extX w != 0x9B && extX w != 0x9C && extY w != 0x9B && extY w != 0x9C

/-- An extended-form trigger with its unit's x and y ports: takes its extension word, moves XSRC to x and YSRC to y, then
fires (R72). A bundle without the word is illegal (R71). -/
def State.triggerExt (s : State) (w : Slot) (x y : Nat) (f : TVal → State → State) : State :=
  if s.guard w.gd then
    match s.frame.rest with
    | [] => s.raiseSlot Err.illegalBundle
    | e :: rest =>
      if s.extOk e && s.srcOk w.src then
        let s1 := { s with frame := { s.frame with rest := rest } }
        f (s.srcVal w.src) ((s1.setOpnd x (s.srcVal (extX e))).setOpnd y (s.srcVal (extY e)))
      else s.raiseSlot Err.illegalBundle
  else s

/-- A carried word: the next long-immediate word, consumed (R71); an illegal bundle where none is left. -/
def State.carried (s : State) (f : Word24 → State → State) : State :=
  match s.frame.rest with
  | [] => s.raiseSlot Err.illegalBundle
  | c :: rest => f c { s with frame := { s.frame with rest := rest } }

/-- A plain move (R70). -/
def State.move (s : State) (w : Slot) (dst : BitVec 9) : State :=
  if s.guard w.gd then
    if s.srcOk w.src && dstLegal s.inHandler s.arch.bind s.frame.cur.slot dst then s.writeDst dst (s.srcVal w.src)
    else s.raiseSlot Err.illegalBundle
  else s

/-- The meaning of a raw move from a source to a register or operand port (R70). -/
def execMove (w : Slot) (dst : BitVec 9) (s : State) : Host.Outcome State Fault Refusal := .next (s.move w dst)

end Sys2Proof.Machine
end

