-- ==== Sys2Proof/Machine/Sched.lean ====
section
/-!
DEFINITION. Sharing issue on a core: context saves and restores (R21, R36, R304), the choice of a ready context, handler
entries, switches (R34, R58, R302, R303, R318), and fatal stops with their dump captures (R59, R319 to R321, R325).
-/
namespace Sys2Proof.Machine

/-- The governor's current value of p15 (R349). -/
def Core.p15 (k : Core) : Bool := k.pwr.gov != .none

/-! ## Results in flight delivered (R45, R46, R139) -/

/-- Results due at or before an sc delivered to their ports, in order of delivery sc, then of issue. -/
def CtxArch.deliver (a : CtxArch) (upTo : W64) (enables : Flags) : CtxArch :=
  let due := a.pipe.filter fun r => decide (r.due.toNat ≤ upTo.toNat)
  if due.isEmpty then a
  else
    let sorted := sortBy (fun (x y : InFlight) => decide (x.due.toNat < y.due.toNat ∨ (x.due = y.due ∧ x.seq ≤ y.seq))) due
    let b := sorted.foldl (fun (b : CtxArch) r => { b with ports := b.ports.put r.port r.res }.raiseFlags r.flags enables) a
    { b with pipe := b.pipe.filter fun r => !decide (r.due.toNat ≤ upTo.toNat) }
/-- Every result in flight delivered at once, in order (R21). -/
def CtxArch.deliverAll (a : CtxArch) (enables : Flags) : CtxArch := a.deliver (BitVec.allOnes 64) enables

/-! ## Saves (R36, R304) -/

/-- A face pair kept where its bit is set, else zero. -/
def keepIf {α : Type} (live : Bool) (z : α) (f : Face α) : Face α :=
  if live then { f with wr := false } else { vis := z, hid := z, wr := false, sw := f.sw }
/-- A register map with the registers outside a live list zeroed. -/
def keepMap {α : Type} (live : W256) (base : Nat) (z : α) (m : SMap (Face α)) : SMap (Face α) :=
  m.mapVal fun i f => keepIf (live.getLsbD (base + i)) z f

/-- The registers as a save and restore leave them; the accumulators under the list only where the launch moves
(R36, R304). -/
def RegFile.restore (r : RegFile) (live : W256) (moved p15 : Bool) : RegFile :=
  { s := keepMap live 0 0 r.s, a := keepMap live 64 0 r.a, v := keepMap live 96 {} r.v,
    p := (keepMap live 80 false r.p).put 15 { vis := p15, hid := false },
    m := keepMap live 128 0 r.m, nt := keepMap live 136 0 r.nt, am := keepMap live 140 0 r.am,
    acc := if moved then keepMap live 144 {} r.acc else r.acc,
    flg := if live.getLsbD 160 then { r.flg with wr := false, clr := 0 }
           else { vis := 0, hid := 0, wr := false, acc := r.flg.acc, clr := 0 },
    grp := r.grp }

/-- The registers and ports that a save and restore leave, results in flight apart. -/
def CtxArch.kept (a : CtxArch) (live : W256) (moved p15 : Bool) : CtxArch :=
  { a with regs := a.regs.restore live moved p15, opnd := [] }
/-- The state a save and restore give (R36, R37): results in flight in their ports, operand ports zero. -/
def CtxArch.restore (a : CtxArch) (live : W256) (moved p15 : Bool) (enables : Flags) : CtxArch :=
  (a.deliverAll enables).kept live moved p15

/-- Whether a load or an atomic of a context has issued and not performed. -/
def Core.waitsLs (k : Core) (c : Nat) : Bool :=
  k.accs.any fun a => a.ctx == c && match a.kind with
    | .load .. => true
    | .atomic .. => true
    | _ => false

/-- The live list a context stands at: its safe point's (R304). -/
def Launch.liveOf (l : Launch) (x : Ctx) : W256 := l.lives.getD (x.safeAt.getD 0) 0

/-- A context switched out: saved under its safe point's live list (R302). While a load or an atomic of it has not performed, its
results stay in flight; the last to perform delivers them all in their order (R21). -/
def State.saveOut (s : State) (core c : Nat) : State :=
  let k := s.coreAt core
  let x := k.ctx c
  match s.launchAt core, x.safeAt with
  | some l, some _ =>
    let b := if k.waitsLs c then x.cur else x.cur.deliverAll (s.enablesOf core c)
    let a := b.kept (l.liveOf x) false k.p15
    s.setCoreAt core (k.setCtx c { x with cur := a, start := a, saved := true })
  | _, _ => s

/-! ## The choice (R302) -/

/-- A context that may be chosen: ready, and not stopped at a safe point for a pre-emption (R305). -/
def eligible (preempt : Bool) (x : Ctx) : Bool := x.status == .ready && !(preempt && x.safeAt.isSome)

/-- The ready user context that has waited longest, ties to the lowest number. -/
def Core.choose (k : Core) (preempt : Bool) : Option Nat :=
  (List.range 4).foldl (fun best c =>
    if eligible preempt (k.ctx c) then
      match best with
      | none => some c
      | some b => if (k.ctx c).since < (k.ctx b).since then some c else best
    else best) none

/-- Whether contexts of a core are stopped at safe points for a pre-emption: its launch is being pre-empted, and no
communication step of it is running (R305, steps 1 and 2). -/
def State.preempting (s : State) (core : Nat) : Bool := ((s.launchAt core).map fun l => l.preempt && l.step.isNone).getD false

/-- A context switched out and not saved yet, at its safe point (R302). -/
def Ctx.toSave (x : Ctx) : Bool := x.safeAt.isSome && !x.saved && (x.status == .ready || x.status == .blocked)

/-- A restored context's vis(p15): the governor's current value (R35, R36). -/
def RegFile.setP15 (r : RegFile) (v : Bool) : RegFile :=
  { r with p := r.p.put 15 { SMap.get { vis := false, hid := false } r.p 15 with vis := v } }
def CtxArch.setP15 (a : CtxArch) (v : Bool) : CtxArch := { a with regs := a.regs.setP15 v }
/-- A saved context as its restore leaves it (R36). -/
def Ctx.restored (x : Ctx) (p15 : Bool) : Ctx :=
  if x.saved then { x with cur := x.cur.setP15 p15, start := x.start.setP15 p15 } else x

/-- A user context takes the core's issue, from a core cycle on: the others at safe points are saved, it is restored if it was
saved (R36, R302). -/
def State.bringIn (s : State) (core c first : Nat) : State :=
  let s1 := (List.range 4).foldl (fun (s : State) d =>
    if d ≠ c ∧ ((s.coreAt core).ctx d).toSave then s.saveOut core d else s) s
  let k := s1.coreAt core
  let x := (k.ctx c).restored k.p15
  s1.setCoreAt core ({ k with issuing := some c }.setCtx c { x with first := max x.first first })

/-! ## Outstanding writes (R40, R48, R49) -/

/-- The tiles a routine of a context is still to write, with its issuing sc; the completion write of one that opens none (R40,
R320). -/
def Routine.owed (r : Routine) : List (W64 × Nat) :=
  if r.opens.isEmpty then [(r.sclk, 0x1FF)] else r.opens.map fun t => (r.sclk, 0xC0 + t)
/-- The writes of a context's phase that have not landed, of its engines' routines and MZEROs those that some tests take: issuing sc
and destination ID (R320). -/
def Core.unlanded (k : Core) (c : Nat) (runs : Routine → Bool) (zeros : ZeroWait → Bool) : List (W64 × Nat) :=
  let x := k.ctx c
  let eng := fun (e : Bool) =>
    match (k.eng e).run with
    | some r => if r.ctx = c ∧ runs r then r.owed else []
    | none => []
  (x.ntWait.map fun r => (r.2, 0x88 + r.1)) ++ (x.cur.amPend.map fun u => (u.issued, 0x8C + u.am)) ++
    ((x.mzWait.filter zeros).map fun z => (z.issued, 0xC0 + z.tile)) ++ eng false ++ eng true ++
    x.answers.map fun w => (w.issued, 0x70 + w.pk)
/-- The writes of a context's phase that have not landed. -/
def Core.outstanding (k : Core) (c : Nat) : List (W64 × Nat) := k.unlanded c (fun _ => true) fun _ => true
/-- Those that do not land by the end of the present cycle either: what its engines are to land at its end has landed by then (R43,
R48, R199, R208). A routine that has lost a row lands nothing (R250). -/
def Core.late (k : Core) (c : Nat) : List (W64 × Nat) :=
  k.unlanded c (fun r => !r.done || r.dataLoss.isSome) fun z => decide (k.cyc < z.due)
/-- The earliest issued of outstanding writes, ties to the lowest ID (R320). -/
def earliest (l : List (W64 × Nat)) : Nat :=
  (l.foldl (fun (b : Option (W64 × Nat)) w =>
    match b with
    | none => some w
    | some v => if w.1.toNat < v.1.toNat ∨ (w.1 = v.1 ∧ w.2 < v.2) then some w else b) none).elim 0 (·.2)

/-! ## Deferred events (R57, R58, R184) -/

/-- The watchpoints that hold a hit for a context (R165). -/
def Core.hitsOf (k : Core) (c : Nat) : Nat :=
  packBits ((List.range 4).map fun i => (SMap.get {} k.wps i).hits.getLsbD c)
/-- The cause word of a context's recorded events, without its served context (R184). -/
def Core.causeOf (k : Core) (c : Nat) (timer : Bool) : W32 :=
  let a := (k.ctx c).cur
  BitVec.ofNat 32 ((0 < a.trapCount : Bool).toNat + 2 * (k.hitsOf c != 0 : Bool).toNat + 4 * (a.arith != 0 : Bool).toNat +
    8 * timer.toNat + 16 * k.hitsOf c + 256 * (a.arith.toNat % 32))
/-- The TRAP word: first code, count saturating at 255 (R131, R184). -/
def CtxArch.trapWord (a : CtxArch) : W32 := BitVec.ofNat 32 (a.trapCode.toNat + 65536 * min 255 a.trapCount)

/-! ## Fatal stops (R59, R320, R321, R325) -/

/-- The cause: the lowest code, with its first detail (R321). -/
def StopInfo.cause (i : StopInfo) : Nat × W64 :=
  i.errs.foldl (fun b e => if e.1 < b.1 then e else b) (i.errs.headD (0, 0))
/-- The other causes' bits (R321). -/
def StopInfo.others (i : StopInfo) : W64 :=
  i.errs.foldl (fun b e => if e.1 = i.cause.1 then b else b ||| BitVec.ofNat 64 (2 ^ e.1)) 0
/-- The particulars of the stops of one context in one core cycle taken together: those of the lowest code, with every
error (R321). -/
def StopInfo.join (l : List StopInfo) : StopInfo :=
  let all := l.flatMap (·.errs)
  let low := l.foldl (fun (b : Option StopInfo) i =>
    match b with
    | none => some i
    | some j => if i.cause.1 < j.cause.1 then some i else some j) none
  match low with
  | none => { errs := [], pc := 0, sclk := 0 }
  | some i => { i with errs := i.cause :: all }

/-- The LDSC entries cancelled leave an engine's outstanding count (R163). -/
def Core.cancelLdsc (k : Core) (l : List Access) : Core :=
  l.foldl (fun (k : Core) a =>
    match a.kind with
    | .ldsc e xs => k.setEng e { k.eng e with outLdsc := (k.eng e).outLdsc - xs.length }
    | _ => k) k

/-- A context's record at its stop: what was in flight is cancelled (R59, R328). -/
def Core.stopped (k : Core) (c : Nat) : Ctx :=
  let x := k.ctx c
  { x with status := .stopped, cut := k.inFlight c, cur := { x.cur with amPend := [] }, answers := [], ntWait := [],
           mzWait := [], split := none }

/-- The context stopped: unlanded writes and unperformed stores cancelled, its events dropped, and the XFER entries that no
step has begun to run (R59, R180). An MPUT or SHAPE that has issued and not performed is cancelled with the stores: DESIGN CHOICE,
unsafe (assumption 79). -/
def Core.cutOff (k : Core) (c : Nat) (st : CtxStatus) : Core :=
  let x := k.stopped c
  let gone := k.accs.filter fun a => a.ctx == c
  let y := { x with cur := { x.cur with pipe := [], trapCode := 0, trapCount := 0, arith := 0 }, status := st, cond := none, flip := none,
                    entry := none, timer := none, timerReq := false, xfers := (x.xfers.filter fun e => e.rel.isSome) }
  { k.cancelLdsc gone with accs := k.accs.filter fun a => a.ctx != c }.setCtx c y

/-- A member that capacity-lost stops is not recorded as having arrived in an episode of its launch (R309). -/
def State.leaveEpisodes (s : State) (core c : Nat) : State :=
  s.modLaunchAt core fun l =>
    { l with episodes := l.episodes.mapVal fun _ (e : Episode) =>
        { e with arrived := e.arrived.filter fun m => m.1 != (l.logical core, c) } }

/-- The capture of a core's stops is left to the end of the cycle in progress (R325). -/
def State.askCapture (s : State) (core : Nat) : State :=
  if s.todo.any fun t => t == .settle core || t == .capture core then s else { s with todo := .capture core :: s.todo }

/-- A stop marked: a new one, or further errors of a context that has stopped in this cycle (R321). -/
def Core.mark (k : Core) (m : StopMark) : Core :=
  if k.marks.any fun n => n.ctx == m.ctx then
    { k with marks := k.marks.map fun n => if n.ctx = m.ctx then { n with infos := n.infos ++ m.infos } else n }
  else { k with marks := k.marks ++ [m] }

/-- The timing fault of a context's plain flip at the end of the present cycle, where a write of its phase does not land by then
(R48, R320). -/
def Core.flipFault (k : Core) (c : Nat) : List StopInfo :=
  match (k.ctx c).flip with
  | some fi =>
    if fi.wait || (k.late c).isEmpty then []
    else [{ errs := [(Err.timing, BitVec.ofNat 64 (earliest (k.late c)))], pc := fi.pc, sclk := (k.ctx c).cur.sclk - 1 }]
  | none => []
/-- An error of a context with the timing fault that the flip of the same core cycle has: both conditions of the cycle are recorded
(R321). -/
def Core.withFlip (k : Core) (c : Nat) (i : StopInfo) : List StopInfo :=
  if i.cause.1 = Err.timing then [i] else i :: k.flipFault c

/-- A context's fatal stop (R59), marked for the cycle's capture, and no switch. A context that has ended is left, but for the
further errors of the cycle of its stop. -/
def State.stopOnly (s : State) (core c : Nat) (i : StopInfo) (handler : Option (Ctx × Service)) : State :=
  let k := s.coreAt core
  let x := k.ctx c
  if x.status = .absent then s
  else if x.status = .stopped then
    if k.marks.any fun n => n.ctx == c then
      s.setCoreAt core (k.mark { ctx := c, infos := [i], snap := {}, events := 0 }) else s
  else
    let m : StopMark :=
      { ctx := c, infos := k.withFlip c i, snap := k.stopped c, handler := handler,
        events := BitVec.ofNat 64 ((k.causeOf c false).toNat % 8192 + 8192 * (c % 8) + 65536 * x.cur.trapWord.toNat) }
    let s1 := (s.setCoreAt core ((k.cutOff c .stopped).mark m)).askCapture core
    match k.lease with
    | some v => if v.ctx = c then s1.endLease core true false else s1
    | none => s1

/-- The particulars of an error not raised by a bundle of the context (R326). -/
def State.standing (s : State) (core c : Nat) (code : Nat) (detail cmd : W64) : StopInfo :=
  let a := ((s.coreAt core).ctx c).cur
  { errs := [(code, detail)], pc := a.pc, sclk := a.sclk, cmd := cmd }

/-! ## The handler (R34, R58, R318) -/

/-- A context's end by HALT: nothing more of it is delivered (R139), its XFERs that no step has begun to run are discarded
(R180), its lease ends (R350). -/
def State.endHalted (s : State) (core c : Nat) : State :=
  let k := s.coreAt core
  let x := k.ctx c
  let s1 := s.setCoreAt core (k.setCtx c { x with status := .halted, xfers := (x.xfers.filter fun e => e.rel.isSome),
                                                  cur := { x.cur with pipe := [] } })
  match k.lease with
  | some v => if v.ctx = c then s1.endLease core true false else s1
  | none => s1

/-- A context returned to the state its flip gave it: ERET action 0 (R58, R132). A blocked one is tested from the next core cycle
on, and so issues from the one after at the earliest, also where a barrier has released it meanwhile (R58, R129). -/
def Core.resume (k : Core) (u pcc : Nat) : Core :=
  let x := k.ctx u
  k.setCtx u { x with status := x.after, entry := none, first := k.cyc + (if x.after = .blocked then 2 else 1), since := pcc }
/-- A context in service whose launch has been cancelled meanwhile stands at a safe point again: it is blocked, or ready at one
(R292, R305). -/
def State.cancelledAt (s : State) (core u : Nat) : Bool :=
  let x := (s.coreAt core).ctx u
  ((s.launchAt core).map (·.cancel)).getD false && (x.after == .blocked || (x.after == .ready && x.safeAt.isSome))
/-- The same, with the effects of a HALT that the entry held back (R58, R134), and of a cancellation (R292). -/
def State.giveBack (s : State) (core u : Nat) : State :=
  let s1 := s.setCoreAt core ((s.coreAt core).resume u s.pcc)
  if ((s.coreAt core).ctx u).after = .halted then s1.endHalted core u
  else if s.cancelledAt core u then s1.stopOnly core u (s1.standing core u Err.launchCancelled 0 0) none
  else s1

/-- The contexts whose entry may be served, in context order; one raised at the safe point of a pre-emption waits for
the resume (R305). -/
def Core.pending (k : Core) (preempt : Bool) : List Nat :=
  (List.range 4).filter fun c => (k.ctx c).status == .awaiting && (k.ctx c).entry.isSome &&
    !(preempt && (k.ctx c).safeAt.isSome)

/-- A served context's entry: the handler at HENTRY, SCLK and HSEL zero (R318); the CATOMs of earlier entries are no longer of its
phase (R181). A result of the handler still in flight at the ERET of its last entry reaches its port, with its flags, at the next
entry: DESIGN CHOICE, unsafe (assumption 78). -/
def Core.enter (k : Core) (u : Nat) (e : Entry) (hentry : W64) (pcc : Nat) : Core :=
  let x := k.ctx u
  let h := k.ctx handlerCtx
  let a := { h.cur.deliverAll 0 with pc := hentry, sclk := 0, hsel := 0, loops := [] }
  let k1 := (k.setCtx u { x with status := .inService, entry := none }).setCtx handlerCtx
    { h with cur := a, start := a, status := .inService, first := k.cyc + 1, noRoll := false, replay := false, landed := [] }
  { k1 with ce := k1.ce.endPhase handlerCtx, svc := { served := some u, entry := { e with cause := e.cause ||| BitVec.ofNat 32 (8192 * u) } },
            issuing := some handlerCtx }.trace pcc handlerCtx 0xA 0 ((e.cause.toNat % 8192 + 8192 * u) % 65536)

/-- The handler takes its next pending request (R34); with HCODE = 0 each is served as an ERET with action 0 (R318). -/
def State.serve (s : State) (core : Nat) : Nat → State
  | 0 => s
  | n + 1 =>
    let k := s.coreAt core
    if k.svc.served.isSome then s
    else
      match k.pending (s.preempting core) with
      | [] => s
      | u :: _ =>
        let p := s.part (s.partOfCore core)
        if p.hcode = 0 then State.serve (s.giveBack core u) core n
        else s.setCoreAt core (k.enter u ((k.ctx u).entry.getD {}) p.hentry s.pcc)

/-! ## Switches (R302, R303, R329) -/

/-- A switch record's payload: the incoming context, or 7, and the reason (R329). -/
def switchPayload (inc : Option Nat) (reason : Nat) : Nat := inc.getD 7 + 8 * reason
/-- A switch record, where the issuing context changes (R329). -/
def Core.traceSwitch (k : Core) (pcc out : Nat) (inc : Option Nat) (reason : Nat) : Core :=
  if inc = some out then k else k.trace pcc out 4 0 (switchPayload inc reason)

/-- The switch point after a context's flip or stop: a pending handler request, else the ready context that has waited
longest, whose first bundle issues in the third core cycle after; else the core idles. -/
def State.switchFrom (s : State) (core out reason : Nat) : State :=
  let s1 := s.serve core 5
  let k := s1.coreAt core
  if k.svc.served.isSome then
    s1.setCoreAt core ({ k with issuing := some handlerCtx }.traceSwitch s1.pcc out (some handlerCtx) reason)
  else
    match k.choose (s1.preempting core) with
    | none => s1.setCoreAt core ({ k with issuing := none }.traceSwitch s1.pcc out none reason)
    | some c =>
      let s2 := s1.bringIn core c (k.cyc + 3)
      s2.setCoreAt core ((s2.coreAt core).traceSwitch s2.pcc out (some c) reason)

/-- The context that may issue in the present core cycle; an idle core takes a pending handler request, or wakes with a
ready context (R129, R302, R305). One that blocks keeps its place until its condition has been tested; one that a
pre-emption has stopped gives up the core (R305). -/
def State.pick (s : State) (core : Nat) : Option Nat × State :=
  let k := s.coreAt core
  match k.issuing with
  | some c =>
    if (k.ctx c).split.isSome then (some c, s)
    else if (k.ctx c).flip.isSome ∨ (k.ctx c).status = .blocked then (none, s)
    else if c = handlerCtx ∨ eligible (s.preempting core) (k.ctx c) then (some c, s)
    else (none, s.switchFrom core c 2)
  | none =>
    let s1 := s.serve core 5
    let k1 := s1.coreAt core
    if k1.svc.served.isSome then
      (some handlerCtx, s1.setCoreAt core ({ k1 with issuing := some handlerCtx }.traceSwitch s1.pcc 7 (some handlerCtx) 6))
    else
      match k1.choose (s1.preempting core) with
      | none => (none, s1)
      | some c =>
        if k1.cyc < (k1.ctx c).first then (none, s1)
        else
          let s2 := s1.bringIn core c 0
          (some c, s2.setCoreAt core ((s2.coreAt core).traceSwitch s2.pcc 7 (some c) 6))

/-! ## A stop and its switch (R302, R319) -/

/-- The handler's service ended without an ERET. -/
def Core.idleHandler (k : Core) : Core :=
  { k.cutOff handlerCtx .absent with svc := {} }

/-- A fatal stop and the switch point it makes when the context was issuing (R302). An error of the handler stops the
handler, and the served context with handler-fault, or, for a register read, with data-loss (R250, R319); where no service is running, the late
error of a command leaves issue as it is (R62, R169). -/
def State.stop (s : State) (core c : Nat) (i : StopInfo) : State :=
  let k := s.coreAt core
  if c = handlerCtx then
    match k.svc.served with
    | some u =>
      let h := some (k.stopped handlerCtx, k.svc)
      let j := StopInfo.join (k.withFlip c i)
      let s1 :=
        if j.cause.1 = Err.dataLoss ∧ j.reg then s.stopOnly core u (s.standing core u Err.dataLoss j.cause.2 0) h
        else s.stopOnly core u (s.standing core u Err.handlerFault (BitVec.ofNat 64 j.cause.1) 0) h
      (s1.setCoreAt core (s1.coreAt core).idleHandler).switchFrom core handlerCtx 2
    | none => s.setCoreAt core k.idleHandler
  else
    let s1 := s.stopOnly core c i none
    if k.issuing = some c then s1.switchFrom core c 2 else s1

/-- A stop of the context that issued a command, for an error the command meets later (R169). -/
def State.stopStanding (s : State) (core c code : Nat) (detail cmd : W64) : State :=
  s.stop core c (s.standing core c code detail cmd)

/-! ## Captures (R325) -/

/-- The core as a capture shows it: the stopped contexts as they stood at their stops, the handler as an error of its left it,
the cycle's ring records written (R325, R329). -/
def Core.captured (k : Core) : Core :=
  k.marks.foldl (fun (k : Core) m =>
    let k1 := k.setCtx m.ctx m.snap
    match m.handler with
    | some h => { k1.setCtx handlerCtx h.1 with svc := h.2 }
    | none => k1) k.flush

/-- A capture's dump of one stop. -/
def StopMark.dump (m : StopMark) (core : Nat) (snap : Core) (l : Launch) (pcc due : Nat) : Dump :=
  let i := StopInfo.join m.infos
  { part := l.part, core := core, ctx := m.ctx, snap := snap, launch := l, cause := i.cause.1, detail := i.cause.2,
    others := i.others, pcc := pcc, pc := i.pc, sclk := i.sclk, events := m.events, cmdPc := i.cmd, due := due, }

/-- The stop's record of the ring, and what its cause means for its launch's status (R288, R329). -/
def State.recordStop (s : State) (core : Nat) (m : StopMark) : State :=
  let i := StopInfo.join m.infos
  let s1 := s.setCoreAt core ((s.coreAt core).trace s.pcc m.ctx 9 m.ctx (i.cause.1 + 256 * (i.sclk.toNat % 2 ^ 32)))
  s1.modLaunchAt core fun l =>
    if i.cause.1 = Err.capacityLost then { l with sawCapacity := true }
    else if i.cause.1 = Err.launchCancelled then l else { l with sawFatal := true }

/-- 64-byte pieces of a capture: the state block, the Larder and the pool; and of a whole dump (R326). -/
def captureLines : Nat := (65536 + 524288 + 3145728) / 64
def dumpLines : Nat := 0x392000 / 64

/-- The stops of a core cycle captured at its end: one capture for all their dumps, and the core issues nothing while it
lasts (R321, R325). Its energy and that of the writing is charged to the contexts' tenant (R347). -/
def State.captureNow (s : State) (core : Nat) : State :=
  let k := s.coreAt core
  if k.marks.isEmpty then s
  else
    let s1 := k.marks.foldl (fun (s : State) m => s.recordStop core m) s
    let k1 := s1.coreAt core
    let snap := { k1.captured with marks := [] }
    let l := (s1.launchAt core).getD { tag := 0, part := 0 }
    let d := s1.ctr
    let new := k.marks.zipIdx.map fun m => m.1.dump core snap l s.pcc (s.pcc + 1 + Config.dumpLatency (d + 2 + m.2))
    let k2 := { k1 with marks := [], hold := max k1.hold (k1.cyc + 1 + Config.captureHold (d + 1) % 15361) }
    ({ s1 with dumps := s1.dumps ++ new, ctr := d + 2 + k.marks.length }.setCoreAt core k2).charge core 5
      (captureLines + k.marks.length * dumpLines)

end Sys2Proof.Machine
end

