-- ==== Sys2Proof/Machine/Control.lean ====
section
/-!
DEFINITION. The CTL triggers of slot 0: transfers, loops, the metadata pointer, next tile, blocking operations, traps,
the handler's operations, leases and HALT (R119 to R134, R183 to R185), and sample-buffer records (R330 to R332).
-/
namespace Sys2Proof.Machine

/-! ## Where a trigger may stand (R119, R120, R166) -/

/-- The contexts a trigger is assigned in, and the header bits its bundle needs. -/
structure Need where
  user : Bool := true
  handler : Bool := false
  f : Bool := false
  sp : Bool := false
  wt : Bool := false
  deriving DecidableEq, Repr

def needBoth : Need := { handler := true }
def needUser : Need := {}
def needCall : Need := { f := true }
def needBlock : Need := { f := true, sp := true }
def needHandler : Need := { user := false, handler := true }
def needEret : Need := { user := false, handler := true, f := true }
def needAnswer : Need := { f := true, wt := true }
def needHalt : Need := { f := true }

/-- Whether a bundle of a user or handler context with a header may hold a trigger. -/
def Need.ok (n : Need) (handler : Bool) (h : Header) : Bool :=
  (if handler then n.handler else n.user) && (!n.f || h.f) && (!n.sp || h.s) && (!n.wt || h.w)
/-- The same of the bundle in progress. -/
def State.needOk (s : State) (n : Need) : Bool := n.ok s.inHandler s.frame.hdr

/-- A CTL trigger in port form; one that may not stand there makes its bundle illegal whatever its guard (R86). -/
def ctlRun (n : Need) (op : TVal → State → State) (w : Slot) (s : State) : Host.Outcome State Fault Refusal :=
  .next (if s.needOk n then s.trigger w op else s.raiseSlot Err.illegalBundle)
/-- A CTL trigger in extended form. -/
def ctlRunExt (n : Need) (op : TVal → State → State) (w : Slot) (s : State) : Host.Outcome State Fault Refusal :=
  .next (if s.needOk n then s.triggerExt w 0x104 0x105 op else s.raiseSlot Err.illegalBundle)
/-- The slot of a trigger that ignores its source: SRC = 0x1E0 (R122, R128, R134). -/
def bare (g : Guard) : Slot := { gd := g, src := 0x1E0 }

/-- c as 64 and as 32 bits, and CTL.x. -/
def TVal.c64 (t : TVal) : W64 := t.val.setWidth 64
def TVal.c32 (t : TVal) : W32 := t.val.setWidth 32
def State.ctlX (s : State) : W64 := (s.opnd 0x104).val.setWidth 64

/-! ## Transfers (R121 to R123) -/

/-- A relative target from c and the code address of a packet (R121). -/
def relTarget (pc : W64) (c : W32) : W64 :=
  pktOf pc + (c.sshiftRight 4).signExtend 64 * 32 + (c &&& 0xF).setWidth 64

/-- A transfer to a target checked under R67; it takes effect after the bundle (R123). -/
def State.jump (s : State) (a : W64) : State :=
  match s.targetError s.frame.cur.core s.frame.cur.ctx a with
  | some e => s.raise e.1 e.2
  | none => { s with frame := { s.frame with target := some a } }

def brOp (t : TVal) (s : State) : State := s.jump (relTarget s.frame.pc t.c32)
def briOp (t : TVal) (s : State) : State := s.jump t.c64
/-- The link is the bundle that follows in program order; its write is a move from slot 0 (R122). -/
def State.link (s : State) : State := s.modRegs fun r => r.landA 15 s.frame.fall
def callOp (t : TVal) (s : State) : State := (s.jump (relTarget s.frame.pc t.c32)).link
def calliOp (t : TVal) (s : State) : State := (s.jump t.c64).link
def retOp (_ : TVal) (s : State) : State := s.jump (s.arch.regs.getA 15).vis

/-! ## Loops (R124 to R126) -/

/-- The code address after the bundle at an address of a packet (R65). -/
def Packet.after (p : Packet) (a : W64) : W64 :=
  let n := wiOf a + (decodeHeader (p.word (wiOf a))).len
  if p.start n then pktOf a + BitVec.ofNat 64 n else pktOf a + 0x20

/-- The segment that holds a code address, in the loop buffer or along the chain. -/
def State.segmentOf (s : State) (core ctx : Nat) (a : W64) : Option Segment :=
  let f := ((s.coreAt core).ctx ctx).fetch
  match f.residentHalf a with
  | some h => some (f.half h)
  | none =>
    match ((s.coreAt core).ctx ctx).keptAt a with
    | some g => some g
    | none =>
      match s.follow (s.partOfCore core) (dieOf core) a 65536 (s.chain core ctx) with
      | .at_ va => some (s.expandFor core ctx va)
      | _ => none

/-- The bundle after the one at an address; the address itself where its segment is malformed (R83). -/
def State.bundleAfter (s : State) (core ctx : Nat) (a : W64) : W64 :=
  match s.segmentOf core ctx a with
  | some g => if g.err.isSome then a else Packet.after (g.packet a) a
  | none => a

/-- LOOP with its trip count and its end word (R124): the checks in order, then a level, or the bundle after end. -/
def State.openLoop (s : State) (count : W32) (e : Word24) : State :=
  let core := s.frame.cur.core
  let ctx := s.frame.cur.ctx
  let start := s.frame.fall
  let stop := relTarget s.frame.pc (e.signExtend 32)
  match s.targetError core ctx stop with
  | some x => s.raise x.1 x.2
  | none =>
    if stop.toNat < start.toNat ∨ 2 ≤ s.arch.loops.length then s.raise Err.loopState 0
    else if count = 0 then { s with frame := { s.frame with target := some (s.bundleAfter core ctx stop) } }
    else
      match s.arch.loops.head? with
      | some l =>
        if l.stop.toNat < stop.toNat then s.raise Err.loopState 0
        else s.setArch { s.arch with loops := { count := count, start := start, stop := stop } :: s.arch.loops }
      | none => s.setArch { s.arch with loops := [{ count := count, start := start, stop := stop }] }

def loopOp (t : TVal) (s : State) : State := s.carried fun e s => s.openLoop t.c32 e
def lexitOp (t : TVal) (s : State) : State :=
  (s.setArch { s.arch with loops := s.arch.loops.drop 1 }).jump (relTarget s.frame.pc t.c32)

/-! ## Metadata pointer and next tile (R127, R128) -/

def mpcsetOp (t : TVal) (s : State) : State :=
  { s with frame := { s.frame with newMpc := some (t.c64 &&& ~~~3) } }

/-- The core cycles an NTREQ takes to its landing: 2 to 24 (R40; assumption 11). -/
def ntreqCycles (free : Nat) : Nat := 2 + free % 23

def ntreqOp (_ : TVal) (s : State) : State :=
  let d := s.draw
  let s1 := d.2
  let a := s1.arch
  let i := a.nti.toNat
  let s2 := s1.setCtx { s1.ctx with cur := { a with nti := a.nti + 1 }, noRoll := true,
                                    ntWait := s1.ctx.ntWait ++ [(i, a.sclk)] }
  s2.modLaunchAt s2.frame.cur.core fun l => { l with ntq := l.ntq ++
    [{ core := s2.frame.cur.core, ctx := s2.frame.cur.ctx, reg := i, sclk := a.sclk, arrive := s2.pcc,
       due := s2.frame.cyc0 + ntreqCycles (Config.ntreqLatency d.1) }] }

/-! ## Blocking operations (R129, R130) -/

def State.blockOn (s : State) (c : BlockCond) (step : Nat) : State :=
  { s with frame := { s.frame with block := some c, barStep := step } }

/-- BAR: g is 255 or held in a group register, else a group error (R130). -/
def barOp (t : TVal) (s : State) : State :=
  s.carried fun n s =>
    let g : Byte := t.val.setWidth 8
    let r := s.arch.regs
    if g = 255 ∨ (List.range 4).any (fun i => r.getGrp i == g) then
      (s.blockOn (.bar g) n.toNat).noRoll
    else s.raise Err.group (g.setWidth 64)
def waitbmOp (t : TVal) (s : State) : State := s.blockOn (.waitbm (t.c64.extractLsb' 0 3).toNat s.ctlX) 0
def waitwpOp (t : TVal) (s : State) : State := s.blockOn (.waitwp (t.c64.getLsbD 0) s.ctlX) 0

/-! ## Traps, the handler, HALT (R131 to R134) -/

def trapOp (t : TVal) (s : State) : State :=
  let a := s.arch
  s.setArch { a with trapCode := if a.trapCount = 0 then t.val.setWidth 16 else a.trapCode, trapCount := a.trapCount + 1 }
/-- ERET's action and target, CTL.x as the bundle's port moves leave it. The port form moves nothing to x: the word that
`ERET CTL(c)` assembles to moves c to the trigger alone (DESIGN CHOICE, unsafe, assumption 65). -/
def eretOp (t : TVal) (s : State) : State :=
  { s with frame := { s.frame with eret := some ((t.c64.extractLsb' 0 2).toNat, s.ctlX) } }
def timersetOp (t : TVal) (s : State) : State :=
  let u := (s.ctlX.extractLsb' 0 2).toNat
  let k := s.core
  let x := k.ctx u
  if x.status = .absent then s
  else s.setCore (k.setCtx u { x with timer := if t.c64 = 0 then none else some (s.pcc + t.c64.toNat) })
def haltOp (_ : TVal) (s : State) : State := { s with frame := { s.frame with halt := true } }

/-! ## RDSCHED (R184) -/

/-- PCC cycles until the yield condition would hold (R184, selector 0x0B; R302). -/
def State.yieldIn (s : State) : W32 :=
  let k := s.core
  let waits := ((List.range 4).filter fun c => k.svc.served != some c && (k.ctx c).status == .ready).map fun c =>
    s.pcc - (k.ctx c).since
  if waits.isEmpty then 0xFFFFFFFF else BitVec.ofNat 32 (60000 - waits.foldl max 0)

/-- The word a selector reads (R184). -/
def State.schedWord (s : State) (sel : Nat) : W32 :=
  let k := s.core
  let served := (k.svc.served.map fun u => (k.ctx u).cur).getD {}
  match sel with
  | 0x00 => k.svc.entry.cause
  | 0x01 => k.svc.entry.trap
  | 0x02 => BitVec.ofNat 32 ((k.ctx 0).status.code + 16 * (k.ctx 1).status.code + 256 * (k.ctx 2).status.code +
      4096 * (k.ctx 3).status.code)
  | 0x03 => served.sclk.setWidth 32
  | 0x04 => served.sclk.extractLsb' 32 32
  | 0x05 => served.pc.setWidth 32
  | 0x06 => served.pc.extractLsb' 32 32
  | 0x07 => BitVec.ofNat 32 k.svc.entry.pcc
  | 0x08 => BitVec.ofNat 32 (k.svc.entry.pcc / 2 ^ 32)
  | 0x09 => ((k.launch.map (·.2)).getD 0)
  | 0x0A => BitVec.ofNat 32 (min ((k.lease.map (·.left)).getD 0) (2 ^ 32 - 1))
  | 0x0B => s.yieldIn
  | _ => 0

def rdschedOp (t : TVal) (s : State) : State :=
  s.modRegs fun r => r.landS (s.ctlX.extractLsb' 0 4).toNat (s.schedWord (t.c64.extractLsb' 0 8).toNat)

/-! ## Sample-buffer records (R330 to R332) -/

/-- XOR of the nibbles of a word (R331). -/
def xorNibbles (n : Nat) : Nat := (List.range 16).foldl (fun x i => x ^^^ (n / 16 ^ i % 16)) 0
/-- A record's header (R331). -/
def recordHeader (seq : W32) (type len kind : Nat) : List Byte :=
  let n := 0xA5 + 4096 * kind + 65536 * len + 2 ^ 24 * type + 2 ^ 32 * seq.toNat
  leBytes 8 (n + 256 * xorNibbles n)

/-- The control block's fields as read (R330). -/
structure SampleBlock where
  base : Nat
  size : Nat
  wr : Nat
  rd : Nat
  lost : Nat
  ok : Bool
  deriving DecidableEq, Repr

def readBlock (l : List Byte) : SampleBlock :=
  let w := fun i => leNat ((l.drop (8 * i)).take 8)
  { base := w 0, size := w 1, wr := w 2, rd := w 3, lost := w 4,
    ok := w 1 % 8 == 0 && decide (64 ≤ w 1) && w 0 % 8 == 0 && (l.drop 0x28).all (· == 0) }

/-- Stream bytes written in the buffer from a stream position; none where a page faults (R330, R332). -/
def State.streamWrite (s : State) (part die : Nat) (b : SampleBlock) (pos : Nat) (bs : List Byte) : Option State :=
  let o := pos % b.size
  let n := min bs.length (b.size - o)
  match s.vcheck part die (BitVec.ofNat 64 b.base) (bs.length - n) true with
  | some _ => none
  | none =>
    match s.unitWrite part die (BitVec.ofNat 64 (b.base + o)) (bs.take n) with
    | .error _ => none
    | .ok s1 =>
      match s1.unitWrite part die (BitVec.ofNat 64 b.base) (bs.drop n) with
      | .error _ => none
      | .ok s2 => some s2

/-- A control-block word written. -/
def State.blockWord (s : State) (part die : Nat) (cb : W64) (off v : Nat) : State :=
  match s.unitWrite part die (cb + BitVec.ofNat 64 off) (leBytes 8 v) with
  | .ok t => t
  | .error _ => s

/-- A record dropped: the block's LOST rises and a LOST record is pending (R332). -/
def State.dropRecord (s : State) (part die core : Nat) (cb : W64) (lost : Nat) : State :=
  let k := s.coreAt core
  (s.setCoreAt core { k with tr := { k.tr with lostPend := k.tr.lostPend + 1 } }).blockWord part die cb 0x20
    ((lost + 1) % 2 ^ 64)

/-- The accesses of a record of a core's sample buffer give way to others (R345). -/
def State.sampleWaits (s : State) (part core n : Nat) : Bool :=
  let cb := (s.coreAt core).tr.sbctl
  s.isBg part && (s.givesWayOn part (dieOf core) cb 64 ||
    match s.vread part (dieOf core) cb 64 with
    | .ok l =>
      let b := readBlock l
      s.givesWayOn part (dieOf core) (BitVec.ofNat 64 (b.base + b.wr % b.size)) n || s.givesWayOn part (dieOf core) (BitVec.ofNat 64 b.base) n
    | .error _ => false)

/-- A record written whole or dropped in a core's sample buffer (R332). -/
def State.sampleNow (s : State) (part core type : Nat) (body : List Byte) : State :=
  let die := dieOf core
  let k := s.coreAt core
  let cb := k.tr.sbctl
  if cb = 0 ∨ ¬(s.part part).accepts 5 then s
  else
    match s.unitRead part die cb 64, s.vcheck part die cb 64 true with
    | .ok (l, s), none =>
      let b := readBlock l
      let un := k.tr.unrec
      let lost := (b.lost + un) % 2 ^ 64
      let pend := k.tr.lostPend + un
      let s1 := s.setCoreAt core { k with tr := { k.tr with unrec := 0, lostPend := pend } }
      let s1 := if un = 0 then s1 else s1.blockWord part die cb 0x20 lost
      let bytes := pad ((8 + body.length + 7) / 8 * 8) (recordHeader 0 0 0 0 ++ body)
      let need := bytes.length + (if pend = 0 then 0 else 16)
      let used := (b.wr + 2 ^ 64 - b.rd) % 2 ^ 64
      if ¬b.ok ∨ b.size < used + need then s1.dropRecord part die core cb lost
      else
        let lostRec := if pend = 0 then [] else
          recordHeader k.tr.seq 0 2 0 ++ leBytes 8 (min pend (2 ^ 32 - 1))
        let seq := if pend = 0 then k.tr.seq else k.tr.seq + 1
        let rec_ := recordHeader seq type (bytes.length / 8) 1 ++ bytes.drop 8
        match s1.streamWrite part die b b.wr (lostRec ++ rec_) with
        | none => s1.dropRecord part die core cb lost
        | some s2 =>
          let k2 := s2.coreAt core
          (s2.setCoreAt core { k2 with tr := { k2.tr with lostPend := 0, seq := seq + 1 } }).blockWord part die cb 0x10
            ((b.wr + (lostRec ++ rec_).length) % 2 ^ 64)
    | _, _ => s.setCoreAt core { k with tr := { k.tr with unrec := min (k.tr.unrec + 1) (2 ^ 32 - 1) } }
/-- A record of a core's sample buffer; at background priority it waits for its channels, or behind another of its partition (R345). -/
def State.sample (s : State) (core type : Nat) (body : List Byte) : State :=
  let part := s.partOfCore core
  if s.isHeld part || s.sampleWaits part core (body.length + 32) then s.hold (.sample part core type body)
  else s.sampleNow part core type body
/-- A record that has waited, offered again (R345). -/
def State.offer (s : State) (h : Held) : State :=
  match h with
  | .put part die l irqs => s.putRecord part die l irqs
  | .sample part core type body =>
    if s.isHeld part || s.sampleWaits part core (body.length + 32) then s.hold h else s.sampleNow part core type body
/-- The records that wait, offered in their order in each PCC cycle. -/
def State.offerHeld (s : State) : State := s.pkg.held.foldl State.offer { s with pkg := { s.pkg with held := [] } }

/-- RECW: N registers from hsF on with the served context's name (R185). -/
def recwOp (t : TVal) (s : State) : State :=
  let f := (t.c64.extractLsb' 0 4).toNat
  let n := min (t.c64.extractLsb' 4 4).toNat (16 - f)
  let type := (t.c64.extractLsb' 8 8).toNat
  let core := s.frame.cur.core
  if n = 0 then s
  else
    match s.launch with
    | some l =>
      let name := contextName l s.core core (s.core.svc.served.getD 0)
      let words := (List.range n).flatMap fun i => leBytes 4 (s.arch.regs.getS (f + i)).vis.toNat
      s.sample core type (name ++ words)
    | none => s

/-! ## LEASE (R183, R350) -/

/-- LEASE: reserved bits, the duration and k checked; a request waits for the planner's answer, at most 6,000 PCC
cycles; a return ends the lease the context holds. -/
def leaseOp (t : TVal) (s : State) : State :=
  let c := t.c64
  let x := s.ctlX
  let k := (c.extractLsb' 4 4).toNat
  let core := s.frame.cur.core
  if c &&& ~~~0xF1 ≠ 0 ∨ (c.getLsbD 0 ∧ (x = 0 ∨ 2 ^ 40 < x.toNat)) ∨ k = 0 ∨ k = 15 then s.raiseSlot Err.operand
  else if c.getLsbD 0 then
    let w : AnswerWait := { kind := 2, pk := k, slot := s.frame.cur.slot, issued := s.arch.sclk, code := 0, arg := x.toNat,
                            due := s.pcc + 6000 }
    (s.setCtx { s.ctx with answers := s.ctx.answers ++ [w] }).noRoll
  else
    let s1 := match s.core.lease with
      | some l => if l.ctx = s.frame.cur.ctx then s.endLease core true false else s
      | none => s
    (s1.modRegs fun r => r.landP k false).noRoll

/-! ## The meanings -/

/-- BR: Relative branch: the target from c and the packet (R121, R122). -/
def execBr (w : Slot) (s : State) : Host.Outcome State Fault Refusal := ctlRun needBoth brOp w s
def execBrExt (w : Slot) (s : State) : Host.Outcome State Fault Refusal := ctlRunExt needBoth brOp w s

/-- BRI: Absolute branch: the target is c (R122). -/
def execBri (w : Slot) (s : State) : Host.Outcome State Fault Refusal := ctlRun needBoth briOp w s
def execBriExt (w : Slot) (s : State) : Host.Outcome State Fault Refusal := ctlRunExt needBoth briOp w s

/-- CALL: Relative call: hid(a15) := link (R122). -/
def execCall (w : Slot) (s : State) : Host.Outcome State Fault Refusal := ctlRun needCall callOp w s
def execCallExt (w : Slot) (s : State) : Host.Outcome State Fault Refusal := ctlRunExt needCall callOp w s

/-- CALLI: Absolute call: hid(a15) := link (R122). -/
def execCalli (w : Slot) (s : State) : Host.Outcome State Fault Refusal := ctlRun needCall calliOp w s
def execCalliExt (w : Slot) (s : State) : Host.Outcome State Fault Refusal := ctlRunExt needCall calliOp w s

/-- RET: Return through vis(a15) (R122). -/
def execRet (g : Guard) (s : State) : Host.Outcome State Fault Refusal := ctlRun needUser retOp (bare g) s
def execRetExt (w : Slot) (s : State) : Host.Outcome State Fault Refusal := ctlRunExt needUser retOp w s

/-- LOOP: Opens a loop level with the carried end (R124). -/
def execLoop (w : Slot) (s : State) : Host.Outcome State Fault Refusal := ctlRun needUser loopOp w s
def execLoopExt (w : Slot) (s : State) : Host.Outcome State Fault Refusal := ctlRunExt needUser loopOp w s

/-- LEXIT: Pops the innermost level and transfers (R126). -/
def execLexit (w : Slot) (s : State) : Host.Outcome State Fault Refusal := ctlRun needUser lexitOp w s
def execLexitExt (w : Slot) (s : State) : Host.Outcome State Fault Refusal := ctlRunExt needUser lexitOp w s

/-- MPCSET: MPC := c with bits [1:0] cleared (R127). -/
def execMpcset (w : Slot) (s : State) : Host.Outcome State Fault Refusal := ctlRun needUser mpcsetOp w s
def execMpcsetExt (w : Slot) (s : State) : Host.Outcome State Fault Refusal := ctlRunExt needUser mpcsetOp w s

/-- NTREQ: Requests the next tile into nt[NTI] (R14, R128). -/
def execNtreq (g : Guard) (s : State) : Host.Outcome State Fault Refusal := ctlRun needUser ntreqOp (bare g) s
def execNtreqExt (w : Slot) (s : State) : Host.Outcome State Fault Refusal := ctlRunExt needUser ntreqOp w s

/-- BAR: Arrives at a group barrier and blocks (R130). -/
def execBar (w : Slot) (s : State) : Host.Outcome State Fault Refusal := ctlRun needBlock barOp w s
def execBarExt (w : Slot) (s : State) : Host.Outcome State Fault Refusal := ctlRunExt needBlock barOp w s

/-- WAITBM: Blocks until the masked bits of cb[b] are set (R130). -/
def execWaitbm (w : Slot) (s : State) : Host.Outcome State Fault Refusal := ctlRun needBlock waitbmOp w s
def execWaitbmExt (w : Slot) (s : State) : Host.Outcome State Fault Refusal := ctlRunExt needBlock waitbmOp w s

/-- WAITWP: Blocks until a write pointer reaches the threshold (R130). -/
def execWaitwp (w : Slot) (s : State) : Host.Outcome State Fault Refusal := ctlRun needBlock waitwpOp w s
def execWaitwpExt (w : Slot) (s : State) : Host.Outcome State Fault Refusal := ctlRunExt needBlock waitwpOp w s

/-- TRAP: Records a deferred TRAP event (R131). -/
def execTrap (w : Slot) (s : State) : Host.Outcome State Fault Refusal := ctlRun needUser trapOp w s
def execTrapExt (w : Slot) (s : State) : Host.Outcome State Fault Refusal := ctlRunExt needUser trapOp w s

/-- ERET: Ends the service of the served context at the flip (R132). -/
def execEret (w : Slot) (s : State) : Host.Outcome State Fault Refusal := ctlRun needEret eretOp w s
def execEretExt (w : Slot) (s : State) : Host.Outcome State Fault Refusal := ctlRunExt needEret eretOp w s

/-- TIMERSET: Arms or disarms a user context's timer (R133). -/
def execTimerset (w : Slot) (s : State) : Host.Outcome State Fault Refusal := ctlRun needHandler timersetOp w s
def execTimersetExt (w : Slot) (s : State) : Host.Outcome State Fault Refusal := ctlRunExt needHandler timersetOp w s

/-- RDSCHED: Scheduler state into a handler register (R184). -/
def execRdsched (w : Slot) (s : State) : Host.Outcome State Fault Refusal := ctlRun needHandler rdschedOp w s
def execRdschedExt (w : Slot) (s : State) : Host.Outcome State Fault Refusal := ctlRunExt needHandler rdschedOp w s

/-- RECW: A software record to the sample buffer (R185). -/
def execRecw (w : Slot) (s : State) : Host.Outcome State Fault Refusal := ctlRun needHandler recwOp w s
def execRecwExt (w : Slot) (s : State) : Host.Outcome State Fault Refusal := ctlRunExt needHandler recwOp w s

/-- LEASE: Requests or returns a boost lease (R183). -/
def execLease (w : Slot) (s : State) : Host.Outcome State Fault Refusal := ctlRun needAnswer leaseOp w s
def execLeaseExt (w : Slot) (s : State) : Host.Outcome State Fault Refusal := ctlRunExt needAnswer leaseOp w s

/-- HALT: Ends the issuing context after its flip (R134). -/
def execHalt (g : Guard) (s : State) : Host.Outcome State Fault Refusal := ctlRun needHalt haltOp (bare g) s
def execHaltExt (w : Slot) (s : State) : Host.Outcome State Fault Refusal := ctlRunExt needHalt haltOp w s

end Sys2Proof.Machine
end

