-- ==== Sys2Proof/Machine/Vector.lean ====
section
/-!
DEFINITION. The vector operations of slots 2 and 3 (R136 to R151).
-/
namespace Sys2Proof.Machine

/-- A vector operation's inputs: x, y, t and the mask k (R136). -/
structure VIn where
  x : TVal
  y : TVal
  t : TVal
  k : W256
  deriving DecidableEq, Repr

/-- What a vector operation delivers: its tagged result and flags; none for a tag mismatch (R98, R139). -/
abbrev VOut := Option (TVal × Flags)

/-- The Integer class (R97). -/
def isIntTag (t : Tag) : Bool := t == 8 || t == 9 || t == 10
/-- The Floating class (R97). -/
def isFltTag (t : Tag) : Bool := t == 1 || t == 2 || t == 3

/-- The elements of a vector at width w (R88). -/
def lanes (v : W2048) (w : Nat) : List Nat := (List.range (2048 / w)).map fun j => elemAt v.toNat w j
/-- A vector's bits from its elements, the first lowest. -/
def packLanes (w : Nat) (l : List Nat) : Nat := l.foldr (fun e acc => e % 2 ^ w + 2 ^ w * acc) 0
/-- A tagged vector from its elements. -/
def vecOf (tag : Tag) (w : Nat) (l : List Nat) : TVal := { val := BitVec.ofNat 2048 (packLanes w l), tag := tag }
/-- Whether element j of width w is active under a mask (R13, R138). -/
def active (k : W256) (w j : Nat) : Bool := k.getLsbD (j * w / 8)
/-- The flags of all elements: each is raised once (R101). -/
def orFlags (l : List (Nat × Flags)) : Flags := l.foldl (fun f p => f ||| p.2) 0
/-- A tagged result of element results. -/
def vecOfFl (tag : Tag) (w : Nat) (l : List (Nat × Flags)) : TVal × Flags := (vecOf tag w (l.map (·.1)), orFlags l)

/-- The vector unit's result port: VA0.q in slot 2, VA1.q in slot 3 (R21, R73). -/
def State.vaPort (s : State) : Nat := 0x91 + s.frame.cur.slot
/-- The inputs of a vector trigger with t (R136). -/
def State.vaIn (s : State) (t : TVal) : VIn :=
  { x := s.opnd 0x100, y := s.opnd 0x101, t := t, k := (s.opnd 0x102).val.setWidth 256 }
/-- A vector trigger fired: the tag check, then the result in flight (R139). -/
def vaFire (lat : Nat) (f : VIn → VOut) (t : TVal) (s : State) : State :=
  match f (s.vaIn t) with
  | some r => (s.pushResult s.vaPort lat r.1 r.2).chargeHere 1 1
  | none => s.raiseSlot Err.tagMismatch
/-- A vector trigger in port form. -/
def vaRun (lat : Nat) (f : VIn → VOut) (w : Slot) (s : State) : Host.Outcome State Fault Refusal :=
  .next (s.trigger w (vaFire lat f))
/-- A vector trigger in extended form. -/
def vaRunExt (lat : Nat) (f : VIn → VOut) (w : Slot) (s : State) : Host.Outcome State Fault Refusal :=
  .next (s.triggerExt w 0x100 0x101 (vaFire lat f))

/-! ## Forms -/

/-- Integer element by element over x and t of one Integer tag (R140). -/
def int2 (f : Nat → Nat → Nat → Nat × Flags) (v : VIn) : VOut :=
  if isIntTag v.x.tag && v.t.tag == v.x.tag then
    let w := tagWidth v.x.tag
    some (vecOfFl v.x.tag w (List.zipWith (f w) (lanes v.x.val w) (lanes v.t.val w)))
  else none
/-- A shift of x's elements by uns(t[4:0]) mod w (R140). -/
def intShift (f : Nat → Nat → Nat → Nat) (v : VIn) : VOut :=
  if isIntTag v.x.tag then
    let w := tagWidth v.x.tag
    let n := (v.t.val.extractLsb' 0 5).toNat % w
    some (vecOf v.x.tag w ((lanes v.x.val w).map fun e => f w e n), 0)
  else none
/-- A bitwise operation over all bits; the tag of x where t's is the same (R141). -/
def bits2 (f : W2048 → W2048 → W2048) (v : VIn) : VOut :=
  some ({ val := f v.x.val v.t.val, tag := if v.x.tag == v.t.tag then v.x.tag else 0 }, 0)
/-- A mask from element truths: every mask bit of a true element's span is set (R142). -/
def maskOf (w : Nat) (l : List Bool) : TVal :=
  { val := BitVec.ofNat 2048 (packLanes (w / 8) (l.map fun b => if b then 2 ^ (w / 8) - 1 else 0)), tag := 0 }
/-- An integer compare (R142). -/
def intCmp (f : Nat → Nat → Nat → Bool) (v : VIn) : VOut :=
  if isIntTag v.x.tag && v.t.tag == v.x.tag then
    let w := tagWidth v.x.tag
    some (maskOf w (List.zipWith (f w) (lanes v.x.val w) (lanes v.t.val w)), 0)
  else none
/-- A floating compare (R142). -/
def fltCmp (c : FCmp) (v : VIn) : VOut :=
  if isFltTag v.x.tag && v.t.tag == v.x.tag then
    match fmtOf v.x.tag with
    | some f =>
      let l := List.zipWith (fCmp f c) (lanes v.x.val f.w) (lanes v.t.val f.w)
      some (maskOf f.w (l.map (·.1)), l.foldl (fun a p => a ||| p.2) 0)
    | none => none
  else none
/-- Floating element by element over x and t of one Floating tag (R143). -/
def flt2 (g : Fmt → Nat → Nat → Nat × Flags) (v : VIn) : VOut :=
  if isFltTag v.x.tag && v.t.tag == v.x.tag then
    match fmtOf v.x.tag with
    | some f => some (vecOfFl v.x.tag f.w (List.zipWith (g f) (lanes v.x.val f.w) (lanes v.t.val f.w)))
    | none => none
  else none
/-- VFMA over x, y and t of one Floating tag (R143). -/
def fltMa (rm : Rm) (v : VIn) : VOut :=
  if isFltTag v.x.tag && v.t.tag == v.x.tag && v.y.tag == v.x.tag then
    match fmtOf v.x.tag with
    | some f =>
      some (vecOfFl v.x.tag f.w
        (List.zipWith (fun (p : Nat × Nat) c => fMa f rm p.1 p.2 c)
          (List.zip (lanes v.x.val f.w) (lanes v.y.val f.w)) (lanes v.t.val f.w)))
    | none => none
  else none

/-! ## Integer operations (R140) -/

/-- VADD: x + t modulo the width (R140). -/
def vaVadd (v : VIn) : VOut := int2 (fun w a c => (wrapTo w (Int.ofNat a + Int.ofNat c), 0)) v
def execVadd (w : Slot) (s : State) : Host.Outcome State Fault Refusal := vaRun 2 vaVadd w s
def execVaddExt (w : Slot) (s : State) : Host.Outcome State Fault Refusal := vaRunExt 2 vaVadd w s

/-- VSUB: x - t modulo the width (R140). -/
def vaVsub (v : VIn) : VOut := int2 (fun w a c => (wrapTo w (Int.ofNat a - Int.ofNat c), 0)) v
def execVsub (w : Slot) (s : State) : Host.Outcome State Fault Refusal := vaRun 2 vaVsub w s
def execVsubExt (w : Slot) (s : State) : Host.Outcome State Fault Refusal := vaRunExt 2 vaVsub w s

/-- VADDS: signed sum clamped once (R140). -/
def vaVaddS (v : VIn) : VOut := int2 (fun w a c => satSigned w (sgnOf w a + sgnOf w c)) v
def execVaddS (w : Slot) (s : State) : Host.Outcome State Fault Refusal := vaRun 2 vaVaddS w s
def execVaddSExt (w : Slot) (s : State) : Host.Outcome State Fault Refusal := vaRunExt 2 vaVaddS w s

/-- VSUBS: signed difference clamped once (R140). -/
def vaVsubS (v : VIn) : VOut := int2 (fun w a c => satSigned w (sgnOf w a - sgnOf w c)) v
def execVsubS (w : Slot) (s : State) : Host.Outcome State Fault Refusal := vaRun 2 vaVsubS w s
def execVsubSExt (w : Slot) (s : State) : Host.Outcome State Fault Refusal := vaRunExt 2 vaVsubS w s

/-- VADDUS: unsigned sum clamped once (R140). -/
def vaVadduS (v : VIn) : VOut := int2 (fun w a c => satUnsigned w (Int.ofNat a + Int.ofNat c)) v
def execVadduS (w : Slot) (s : State) : Host.Outcome State Fault Refusal := vaRun 2 vaVadduS w s
def execVadduSExt (w : Slot) (s : State) : Host.Outcome State Fault Refusal := vaRunExt 2 vaVadduS w s

/-- VSUBUS: unsigned difference clamped once (R140). -/
def vaVsubuS (v : VIn) : VOut := int2 (fun w a c => satUnsigned w (Int.ofNat a - Int.ofNat c)) v
def execVsubuS (w : Slot) (s : State) : Host.Outcome State Fault Refusal := vaRun 2 vaVsubuS w s
def execVsubuSExt (w : Slot) (s : State) : Host.Outcome State Fault Refusal := vaRunExt 2 vaVsubuS w s

/-- VMUL: x * t modulo the width (R140). -/
def vaVmul (v : VIn) : VOut := int2 (fun w a c => (a * c % 2 ^ w, 0)) v
def execVmul (w : Slot) (s : State) : Host.Outcome State Fault Refusal := vaRun 2 vaVmul w s
def execVmulExt (w : Slot) (s : State) : Host.Outcome State Fault Refusal := vaRunExt 2 vaVmul w s

/-- VMIN: the smaller signed element (R140). -/
def vaVmin (v : VIn) : VOut := int2 (fun w a c => (if sgnOf w c < sgnOf w a then c else a, 0)) v
def execVmin (w : Slot) (s : State) : Host.Outcome State Fault Refusal := vaRun 2 vaVmin w s
def execVminExt (w : Slot) (s : State) : Host.Outcome State Fault Refusal := vaRunExt 2 vaVmin w s

/-- VMAX: the larger signed element (R140). -/
def vaVmax (v : VIn) : VOut := int2 (fun w a c => (if sgnOf w a < sgnOf w c then c else a, 0)) v
def execVmax (w : Slot) (s : State) : Host.Outcome State Fault Refusal := vaRun 2 vaVmax w s
def execVmaxExt (w : Slot) (s : State) : Host.Outcome State Fault Refusal := vaRunExt 2 vaVmax w s

/-- VMINU: the smaller unsigned element (R140). -/
def vaVminu (v : VIn) : VOut := int2 (fun _ a c => (if c < a then c else a, 0)) v
def execVminu (w : Slot) (s : State) : Host.Outcome State Fault Refusal := vaRun 2 vaVminu w s
def execVminuExt (w : Slot) (s : State) : Host.Outcome State Fault Refusal := vaRunExt 2 vaVminu w s

/-- VMAXU: the larger unsigned element (R140). -/
def vaVmaxu (v : VIn) : VOut := int2 (fun _ a c => (if a < c then c else a, 0)) v
def execVmaxu (w : Slot) (s : State) : Host.Outcome State Fault Refusal := vaRun 2 vaVmaxu w s
def execVmaxuExt (w : Slot) (s : State) : Host.Outcome State Fault Refusal := vaRunExt 2 vaVmaxu w s

/-- VABS: the absolute value of t modulo the width; the tag is t's (R140). -/
def vaVabs (v : VIn) : VOut := 
  if isIntTag v.t.tag then
    let w := tagWidth v.t.tag
    some (vecOf v.t.tag w ((lanes v.t.val w).map fun e => wrapTo w (Int.ofNat (sgnOf w e).natAbs)), 0)
  else none
def execVabs (w : Slot) (s : State) : Host.Outcome State Fault Refusal := vaRun 2 vaVabs w s
def execVabsExt (w : Slot) (s : State) : Host.Outcome State Fault Refusal := vaRunExt 2 vaVabs w s

/-- VSHL: x shifted left (R140). -/
def vaVshl (v : VIn) : VOut := intShift (fun w e n => e * 2 ^ n % 2 ^ w) v
def execVshl (w : Slot) (s : State) : Host.Outcome State Fault Refusal := vaRun 2 vaVshl w s
def execVshlExt (w : Slot) (s : State) : Host.Outcome State Fault Refusal := vaRunExt 2 vaVshl w s

/-- VSHR: unsigned x shifted right (R140). -/
def vaVshr (v : VIn) : VOut := intShift (fun _ e n => e / 2 ^ n) v
def execVshr (w : Slot) (s : State) : Host.Outcome State Fault Refusal := vaRun 2 vaVshr w s
def execVshrExt (w : Slot) (s : State) : Host.Outcome State Fault Refusal := vaRunExt 2 vaVshr w s

/-- VSAR: signed x shifted right (R140). -/
def vaVsar (v : VIn) : VOut := intShift (fun w e n => wrapTo w (sgnOf w e / 2 ^ n)) v
def execVsar (w : Slot) (s : State) : Host.Outcome State Fault Refusal := vaRun 2 vaVsar w s
def execVsarExt (w : Slot) (s : State) : Host.Outcome State Fault Refusal := vaRunExt 2 vaVsar w s

/-! ## Logical operations and compares (R141, R142) -/

/-- VAND: x and t (R141). -/
def vaVand (v : VIn) : VOut := bits2 (fun a c => a &&& c) v
def execVand (w : Slot) (s : State) : Host.Outcome State Fault Refusal := vaRun 2 vaVand w s
def execVandExt (w : Slot) (s : State) : Host.Outcome State Fault Refusal := vaRunExt 2 vaVand w s

/-- VOR: x or t (R141). -/
def vaVor (v : VIn) : VOut := bits2 (fun a c => a ||| c) v
def execVor (w : Slot) (s : State) : Host.Outcome State Fault Refusal := vaRun 2 vaVor w s
def execVorExt (w : Slot) (s : State) : Host.Outcome State Fault Refusal := vaRunExt 2 vaVor w s

/-- VXOR: x xor t (R141). -/
def vaVxor (v : VIn) : VOut := bits2 (fun a c => a ^^^ c) v
def execVxor (w : Slot) (s : State) : Host.Outcome State Fault Refusal := vaRun 2 vaVxor w s
def execVxorExt (w : Slot) (s : State) : Host.Outcome State Fault Refusal := vaRunExt 2 vaVxor w s

/-- VANDN: x and not t (R141). -/
def vaVandn (v : VIn) : VOut := bits2 (fun a c => a &&& ~~~c) v
def execVandn (w : Slot) (s : State) : Host.Outcome State Fault Refusal := vaRun 2 vaVandn w s
def execVandnExt (w : Slot) (s : State) : Host.Outcome State Fault Refusal := vaRunExt 2 vaVandn w s

/-- VCMPEQ: x = t (R142). -/
def vaVcmpeq (v : VIn) : VOut := intCmp (fun _ a c => a == c) v
def execVcmpeq (w : Slot) (s : State) : Host.Outcome State Fault Refusal := vaRun 2 vaVcmpeq w s
def execVcmpeqExt (w : Slot) (s : State) : Host.Outcome State Fault Refusal := vaRunExt 2 vaVcmpeq w s

/-- VCMPNE: x is not t (R142). -/
def vaVcmpne (v : VIn) : VOut := intCmp (fun _ a c => a != c) v
def execVcmpne (w : Slot) (s : State) : Host.Outcome State Fault Refusal := vaRun 2 vaVcmpne w s
def execVcmpneExt (w : Slot) (s : State) : Host.Outcome State Fault Refusal := vaRunExt 2 vaVcmpne w s

/-- VCMPLT: signed x < t (R142). -/
def vaVcmplt (v : VIn) : VOut := intCmp (fun w a c => decide (sgnOf w a < sgnOf w c)) v
def execVcmplt (w : Slot) (s : State) : Host.Outcome State Fault Refusal := vaRun 2 vaVcmplt w s
def execVcmpltExt (w : Slot) (s : State) : Host.Outcome State Fault Refusal := vaRunExt 2 vaVcmplt w s

/-- VCMPLE: signed x <= t (R142). -/
def vaVcmple (v : VIn) : VOut := intCmp (fun w a c => decide (sgnOf w a ≤ sgnOf w c)) v
def execVcmple (w : Slot) (s : State) : Host.Outcome State Fault Refusal := vaRun 2 vaVcmple w s
def execVcmpleExt (w : Slot) (s : State) : Host.Outcome State Fault Refusal := vaRunExt 2 vaVcmple w s

/-- VCMPLTU: unsigned x < t (R142). -/
def vaVcmpltu (v : VIn) : VOut := intCmp (fun _ a c => decide (a < c)) v
def execVcmpltu (w : Slot) (s : State) : Host.Outcome State Fault Refusal := vaRun 2 vaVcmpltu w s
def execVcmpltuExt (w : Slot) (s : State) : Host.Outcome State Fault Refusal := vaRunExt 2 vaVcmpltu w s

/-- VCMPLEU: unsigned x <= t (R142). -/
def vaVcmpleu (v : VIn) : VOut := intCmp (fun _ a c => decide (a ≤ c)) v
def execVcmpleu (w : Slot) (s : State) : Host.Outcome State Fault Refusal := vaRun 2 vaVcmpleu w s
def execVcmpleuExt (w : Slot) (s : State) : Host.Outcome State Fault Refusal := vaRunExt 2 vaVcmpleu w s

/-- VFCMPEQ: x = t numerically (R142). -/
def vaVfcmpeq (v : VIn) : VOut := fltCmp .eq v
def execVfcmpeq (w : Slot) (s : State) : Host.Outcome State Fault Refusal := vaRun 2 vaVfcmpeq w s
def execVfcmpeqExt (w : Slot) (s : State) : Host.Outcome State Fault Refusal := vaRunExt 2 vaVfcmpeq w s

/-- VFCMPLT: x < t (R142). -/
def vaVfcmplt (v : VIn) : VOut := fltCmp .lt v
def execVfcmplt (w : Slot) (s : State) : Host.Outcome State Fault Refusal := vaRun 2 vaVfcmplt w s
def execVfcmpltExt (w : Slot) (s : State) : Host.Outcome State Fault Refusal := vaRunExt 2 vaVfcmplt w s

/-- VFCMPLE: x <= t (R142). -/
def vaVfcmple (v : VIn) : VOut := fltCmp .le v
def execVfcmple (w : Slot) (s : State) : Host.Outcome State Fault Refusal := vaRun 2 vaVfcmple w s
def execVfcmpleExt (w : Slot) (s : State) : Host.Outcome State Fault Refusal := vaRunExt 2 vaVfcmple w s

/-- VFCMPUN: x or t is a NaN (R142). -/
def vaVfcmpun (v : VIn) : VOut := fltCmp .un v
def execVfcmpun (w : Slot) (s : State) : Host.Outcome State Fault Refusal := vaRun 2 vaVfcmpun w s
def execVfcmpunExt (w : Slot) (s : State) : Host.Outcome State Fault Refusal := vaRunExt 2 vaVfcmpun w s

/-! ## Floating arithmetic (R143) -/

/-- VFADD: round(x + t) (R143). -/
def vaVfadd (rm : Rm) (v : VIn) : VOut := flt2 (fun f a c => fAdd f rm a c) v
def execVfadd (w : Slot) (rm : Rm) (s : State) : Host.Outcome State Fault Refusal := vaRun 4 (vaVfadd rm) w s
def execVfaddExt (w : Slot) (rm : Rm) (s : State) : Host.Outcome State Fault Refusal :=
  vaRunExt 4 (vaVfadd rm) w s

/-- VFSUB: round(x - t) (R143). -/
def vaVfsub (rm : Rm) (v : VIn) : VOut := flt2 (fun f a c => fSub f rm a c) v
def execVfsub (w : Slot) (rm : Rm) (s : State) : Host.Outcome State Fault Refusal := vaRun 4 (vaVfsub rm) w s
def execVfsubExt (w : Slot) (rm : Rm) (s : State) : Host.Outcome State Fault Refusal :=
  vaRunExt 4 (vaVfsub rm) w s

/-- VFMUL: round(x * t) (R143). -/
def vaVfmul (rm : Rm) (v : VIn) : VOut := flt2 (fun f a c => fMul f rm a c) v
def execVfmul (w : Slot) (rm : Rm) (s : State) : Host.Outcome State Fault Refusal := vaRun 5 (vaVfmul rm) w s
def execVfmulExt (w : Slot) (rm : Rm) (s : State) : Host.Outcome State Fault Refusal :=
  vaRunExt 5 (vaVfmul rm) w s

/-- VFMA: round(x * y + t), one rounding (R143). -/
def vaVfma (rm : Rm) (v : VIn) : VOut := fltMa rm v
def execVfma (w : Slot) (rm : Rm) (s : State) : Host.Outcome State Fault Refusal := vaRun 5 (vaVfma rm) w s
def execVfmaExt (w : Slot) (rm : Rm) (s : State) : Host.Outcome State Fault Refusal :=
  vaRunExt 5 (vaVfma rm) w s

/-- VFMIN: the smaller element, -0 below +0 (R143). -/
def vaVfmin (v : VIn) : VOut := flt2 (fun f a c => fMinMax f false a c) v
def execVfmin (w : Slot) (s : State) : Host.Outcome State Fault Refusal := vaRun 4 vaVfmin w s
def execVfminExt (w : Slot) (s : State) : Host.Outcome State Fault Refusal := vaRunExt 4 vaVfmin w s

/-- VFMAX: the larger element, -0 below +0 (R143). -/
def vaVfmax (v : VIn) : VOut := flt2 (fun f a c => fMinMax f true a c) v
def execVfmax (w : Slot) (s : State) : Host.Outcome State Fault Refusal := vaRun 4 vaVfmax w s
def execVfmaxExt (w : Slot) (s : State) : Host.Outcome State Fault Refusal := vaRunExt 4 vaVfmax w s

/-! ## Lane operations (R144, R145) -/

/-- Element j of a list of lanes, 0 past its end. -/
def laneAt (l : List Nat) (j : Nat) : Nat := l.getD j 0
/-- The half-width and the double-width tag of an integer tag (R145). -/
def halfTag (t : Tag) : Tag := t + 1
def doubleTag (t : Tag) : Tag := t - 1

/-- VPERM: element j := x element (t_j mod n); a 4-bit x is a tag mismatch (R144). -/
def vaVperm (v : VIn) : VOut := 
  let w := tagWidth v.x.tag
  if w = 4 then none
  else
    let xs := lanes v.x.val w
    some (vecOf v.x.tag w ((lanes v.t.val w).map fun i => laneAt xs (i % (2048 / w))), 0)
def execVperm (w : Slot) (s : State) : Host.Outcome State Fault Refusal := vaRun 2 vaVperm w s
def execVpermExt (w : Slot) (s : State) : Host.Outcome State Fault Refusal := vaRunExt 2 vaVperm w s

/-- VBCAST: every element := t[w-1:0] (R144). -/
def vaVbcast (v : VIn) : VOut := 
  let w := tagWidth v.x.tag
  some (vecOf v.x.tag w (List.replicate (2048 / w) (v.t.val.toNat % 2 ^ w)), 0)
def execVbcast (w : Slot) (s : State) : Host.Outcome State Fault Refusal := vaRun 2 vaVbcast w s
def execVbcastExt (w : Slot) (s : State) : Host.Outcome State Fault Refusal := vaRunExt 2 vaVbcast w s

/-- VROT: element j := x element ((j + sgn(t[31:0])) mod n) (R144). -/
def vaVrot (v : VIn) : VOut := 
  let w := tagWidth v.x.tag
  let n := 2048 / w
  let xs := lanes v.x.val w
  let r := (v.t.val.setWidth 32).toInt
  some (vecOf v.x.tag w ((List.range n).map fun j => laneAt xs ((Int.ofNat j + r) % Int.ofNat n).toNat), 0)
def execVrot (w : Slot) (s : State) : Host.Outcome State Fault Refusal := vaRun 2 vaVrot w s
def execVrotExt (w : Slot) (s : State) : Host.Outcome State Fault Refusal := vaRunExt 2 vaVrot w s

/-- VINS: x with element (t[31:0] mod n) := y[w-1:0] (R144). -/
def vaVins (v : VIn) : VOut := 
  let w := tagWidth v.x.tag
  let i := (v.t.val.extractLsb' 0 32).toNat % (2048 / w)
  some (vecOf v.x.tag w ((lanes v.x.val w).set i (v.y.val.toNat % 2 ^ w)), 0)
def execVins (w : Slot) (s : State) : Host.Outcome State Fault Refusal := vaRun 2 vaVins w s
def execVinsExt (w : Slot) (s : State) : Host.Outcome State Fault Refusal := vaRunExt 2 vaVins w s

/-- VEXT: the element (t[31:0] mod n) of x in the low bits, tag NONE (R144). -/
def vaVext (v : VIn) : VOut := 
  let w := tagWidth v.x.tag
  let i := (v.t.val.extractLsb' 0 32).toNat % (2048 / w)
  some (plain (elemAt v.x.val.toNat w i), 0)
def execVext (w : Slot) (s : State) : Host.Outcome State Fault Refusal := vaRun 2 vaVext w s
def execVextExt (w : Slot) (s : State) : Host.Outcome State Fault Refusal := vaRunExt 2 vaVext w s

/-- VSEL: element j := t_j where active, else x_j (R144). -/
def vaVsel (v : VIn) : VOut := 
  let w := tagWidth v.x.tag
  let xs := lanes v.x.val w
  let ts := lanes v.t.val w
  some (vecOf (if v.t.tag == v.x.tag then v.x.tag else 0) w
    ((List.range (2048 / w)).map fun j => if active v.k w j then laneAt ts j else laneAt xs j), 0)
def execVsel (w : Slot) (s : State) : Host.Outcome State Fault Refusal := vaRun 2 vaVsel w s
def execVselExt (w : Slot) (s : State) : Host.Outcome State Fault Refusal := vaRunExt 2 vaVsel w s

/-- VTAG: the bits of x with tag t[3:0]; a reserved tag is a mismatch (R144). -/
def vaVtag (v : VIn) : VOut := 
  let t := v.t.val.extractLsb' 0 4
  if 0xD ≤ t.toNat then none else some ({ val := v.x.val, tag := t }, 0)
def execVtag (w : Slot) (s : State) : Host.Outcome State Fault Refusal := vaRun 2 vaVtag w s
def execVtagExt (w : Slot) (s : State) : Host.Outcome State Fault Refusal := vaRunExt 2 vaVtag w s

/-- VIOTA: element j := t[31:0] + j modulo the width (R144). -/
def vaViota (v : VIn) : VOut := 
  if isIntTag v.x.tag then
    let w := tagWidth v.x.tag
    let b := (v.t.val.extractLsb' 0 32).toNat
    some (vecOf v.x.tag w ((List.range (2048 / w)).map fun j => (b + j) % 2 ^ w), 0)
  else none
def execViota (w : Slot) (s : State) : Host.Outcome State Fault Refusal := vaRun 2 vaViota w s
def execViotaExt (w : Slot) (s : State) : Host.Outcome State Fault Refusal := vaRunExt 2 vaViota w s

/-- VPACK: x and t narrowed to half width (R145). -/
def vaVpack (v : VIn) : VOut := 
  if isIntTag v.x.tag && v.t.tag == v.x.tag then
    let w := tagWidth v.x.tag
    some (vecOf (halfTag v.x.tag) (w / 2) ((lanes v.x.val w ++ lanes v.t.val w).map fun e => e % 2 ^ (w / 2)), 0)
  else none
def execVpack (w : Slot) (s : State) : Host.Outcome State Fault Refusal := vaRun 2 vaVpack w s
def execVpackExt (w : Slot) (s : State) : Host.Outcome State Fault Refusal := vaRunExt 2 vaVpack w s

/-- VPACKS: x and t clamped to half width (R145). -/
def vaVpackS (v : VIn) : VOut := 
  if isIntTag v.x.tag && v.t.tag == v.x.tag then
    let w := tagWidth v.x.tag
    some (vecOfFl (halfTag v.x.tag) (w / 2)
      ((lanes v.x.val w ++ lanes v.t.val w).map fun e => satSigned (w / 2) (sgnOf w e)))
  else none
def execVpackS (w : Slot) (s : State) : Host.Outcome State Fault Refusal := vaRun 2 vaVpackS w s
def execVpackSExt (w : Slot) (s : State) : Host.Outcome State Fault Refusal := vaRunExt 2 vaVpackS w s

/-- VUNPKL: the low half of t widened with its sign; INT32 is a tag mismatch (R145). -/
def vaVunpkl (v : VIn) : VOut := 
  if v.t.tag == 9 || v.t.tag == 10 then
    let w := tagWidth v.t.tag
    some (vecOf (doubleTag v.t.tag) (2 * w)
      ((List.range (2048 / w / 2)).map fun j => wrapTo (2 * w) (sgnOf w (elemAt v.t.val.toNat w (0 + j)))), 0)
  else none
def execVunpkl (w : Slot) (s : State) : Host.Outcome State Fault Refusal := vaRun 2 vaVunpkl w s
def execVunpklExt (w : Slot) (s : State) : Host.Outcome State Fault Refusal := vaRunExt 2 vaVunpkl w s

/-- VUNPKH: the high half of t widened with its sign; INT32 is a tag mismatch (R145). -/
def vaVunpkh (v : VIn) : VOut := 
  if v.t.tag == 9 || v.t.tag == 10 then
    let w := tagWidth v.t.tag
    some (vecOf (doubleTag v.t.tag) (2 * w)
      ((List.range (2048 / w / 2)).map fun j => wrapTo (2 * w) (sgnOf w (elemAt v.t.val.toNat w ((2048 / w / 2) + j)))), 0)
  else none
def execVunpkh (w : Slot) (s : State) : Host.Outcome State Fault Refusal := vaRun 2 vaVunpkh w s
def execVunpkhExt (w : Slot) (s : State) : Host.Outcome State Fault Refusal := vaRunExt 2 vaVunpkh w s

/-! ## Reductions (R146) -/

/-- The active elements of x at its width, as codes. -/
def activeOf (v : VIn) : List Nat :=
  let w := tagWidth v.x.tag
  ((List.range (2048 / w)).filter fun j => active v.k w j).map fun j => elemAt v.x.val.toNat w j

/-- The largest or smallest integer of a list, from a start value. -/
def extreme (mx : Bool) (z : Int) (l : List Int) : Int :=
  l.foldl (fun a e => if (if mx then decide (a < e) else decide (e < a)) then e else a) z

/-- A floating extreme of the active elements as FP32: an infinity where none is active, the NaN where one is (R146). -/
def fltExtreme (mx : Bool) (v : VIn) : VOut :=
  if isFltTag v.x.tag then
    match fmtOf v.x.tag with
    | some f =>
      let l := activeOf v
      if l.any fun e => (f.value e).isNan then some ({ val := BitVec.ofNat 2048 fp32.canonNan, tag := 1 }, Flags.nanSeen)
      else
        match l with
        | [] => some ({ val := BitVec.ofNat 2048 (fp32.infCode mx), tag := 1 }, 0)
        | e :: r =>
          let b := r.foldl (fun a c => (fMinMax f mx a c).1) e
          some ({ val := BitVec.ofNat 2048 (fp32.deliver .rne (f.value b)).1, tag := 1 }, 0)
    | none => none
  else none

/-- VRADD: the exact sum of the active elements, 64 bits (R146). -/
def vaVradd (v : VIn) : VOut := 
  if isIntTag v.x.tag then
    let w := tagWidth v.x.tag
    let z := (activeOf v).foldl (fun a e => a + sgnOf w e) 0
    some (plain (BitVec.ofInt 64 z).toNat, 0)
  else none
def execVradd (w : Slot) (s : State) : Host.Outcome State Fault Refusal := vaRun 6 vaVradd w s
def execVraddExt (w : Slot) (s : State) : Host.Outcome State Fault Refusal := vaRunExt 6 vaVradd w s

/-- VRMAX: the largest active element (R146). -/
def vaVrmax (v : VIn) : VOut := 
  if isIntTag v.x.tag then
    let w := tagWidth v.x.tag
    some (plain (BitVec.ofInt 32 (extreme true (-(2 ^ (w - 1))) ((activeOf v).map (sgnOf w)))).toNat, 0)
  else none
def execVrmax (w : Slot) (s : State) : Host.Outcome State Fault Refusal := vaRun 6 vaVrmax w s
def execVrmaxExt (w : Slot) (s : State) : Host.Outcome State Fault Refusal := vaRunExt 6 vaVrmax w s

/-- VRMIN: the smallest active element (R146). -/
def vaVrmin (v : VIn) : VOut := 
  if isIntTag v.x.tag then
    let w := tagWidth v.x.tag
    some (plain (BitVec.ofInt 32 (extreme false (2 ^ (w - 1) - 1) ((activeOf v).map (sgnOf w)))).toNat, 0)
  else none
def execVrmin (w : Slot) (s : State) : Host.Outcome State Fault Refusal := vaRun 6 vaVrmin w s
def execVrminExt (w : Slot) (s : State) : Host.Outcome State Fault Refusal := vaRunExt 6 vaVrmin w s

/-- VFRADD: the exact sum of the active elements, rounded once to FP32 (R146). -/
def vaVfradd (v : VIn) : VOut := 
  if isFltTag v.x.tag then
    match fmtOf v.x.tag with
    | some f =>
      let a := (activeOf v).foldl (fun (a : SumAcc) e => a.push (f.value e)) {}
      let z := a.value false
      let r := fp32.deliver .rne z.1
      some ({ val := BitVec.ofNat 2048 r.1, tag := 1 }, (if a.pinf && a.ninf then Flags.nv else 0) ||| z.2 ||| r.2)
    | none => none
  else none
def execVfradd (w : Slot) (s : State) : Host.Outcome State Fault Refusal := vaRun 6 vaVfradd w s
def execVfraddExt (w : Slot) (s : State) : Host.Outcome State Fault Refusal := vaRunExt 6 vaVfradd w s

/-- VFRMAX: the largest active element as FP32 (R146). -/
def vaVfrmax (v : VIn) : VOut := fltExtreme true v
def execVfrmax (w : Slot) (s : State) : Host.Outcome State Fault Refusal := vaRun 6 vaVfrmax w s
def execVfrmaxExt (w : Slot) (s : State) : Host.Outcome State Fault Refusal := vaRunExt 6 vaVfrmax w s

/-- VFRMIN: the smallest active element as FP32 (R146). -/
def vaVfrmin (v : VIn) : VOut := fltExtreme false v
def execVfrmin (w : Slot) (s : State) : Host.Outcome State Fault Refusal := vaRun 6 vaVfrmin w s
def execVfrminExt (w : Slot) (s : State) : Host.Outcome State Fault Refusal := vaRunExt 6 vaVfrmin w s

/-! ## VDOT4.S and VMIX (R147, R151) -/

/-- VDOT4S: INT32 accumulator plus four INT8 products, clamped once (R147). -/
def vaVdot4S (v : VIn) : VOut := 
  if v.x.tag == 10 && v.y.tag == 10 && v.t.tag == 8 then
    some (vecOfFl 8 32 ((List.range 64).map fun j =>
      satSigned 32 ((List.range 4).foldl (fun a i =>
        a + sgnOf 8 (elemAt v.x.val.toNat 8 (4 * j + i)) * sgnOf 8 (elemAt v.y.val.toNat 8 (4 * j + i)))
        (sgnOf 32 (elemAt v.t.val.toNat 32 j)))))
  else none
def execVdot4S (w : Slot) (s : State) : Host.Outcome State Fault Refusal := vaRun 5 vaVdot4S w s
def execVdot4SExt (w : Slot) (s : State) : Host.Outcome State Fault Refusal := vaRunExt 5 vaVdot4S w s

/-- One round of VMIX on a lane's four words (R151). -/
def mixRound (k0 k1 : W32) (r : Nat) (q : W32 × W32 × W32 × W32) : W32 × W32 × W32 × W32 :=
  let p := q.1.toNat * 0xA4C1F36B
  let u := q.2.2.1.toNat * 0x8E3D57A9
  let n0 : W32 := BitVec.ofNat 32 (u / 2 ^ 32) ^^^ q.2.1 ^^^ (k0 + BitVec.ofNat 32 (r * 0xB5297A4D))
  let n2 : W32 := BitVec.ofNat 32 (p / 2 ^ 32) ^^^ q.2.2.2 ^^^ (k1 + BitVec.ofNat 32 (r * 0x68E31DA5))
  (n0, BitVec.ofNat 32 u, n2, BitVec.ofNat 32 p)

/-- One lane of VMIX: counter and key words (R151). -/
def mixLane (x t : Nat) (l : Nat) : List Nat :=
  let w := fun i => BitVec.ofNat 32 (elemAt x 32 (4 * l + i))
  let k := fun i => BitVec.ofNat 32 (elemAt t 32 (4 * l + i))
  let q := (List.range 4).foldl (fun q r => mixRound (k 0) (k 1) r q) (w 0, w 1, w 2, w 3)
  [(q.1 ^^^ k 2).toNat, (q.2.1 ^^^ k 3).toNat, q.2.2.1.toNat, q.2.2.2.toNat]

/-- VMIX: the counter-based mixing function, INT32 (R151). -/
def vaVmix (v : VIn) : VOut := 
  if v.x.tag == 8 && v.t.tag == 8 then
    some (vecOf 8 32 ((List.range 16).flatMap (mixLane v.x.val.toNat v.t.val.toNat)), 0)
  else none
def execVmix (w : Slot) (s : State) : Host.Outcome State Fault Refusal := vaRun 3 vaVmix w s
def execVmixExt (w : Slot) (s : State) : Host.Outcome State Fault Refusal := vaRunExt 3 vaVmix w s

/-! ## Conversions (R148 to R150) -/

/-- A conversion's control word (R148). -/
structure CvtCtl where
  part : Nat
  amn : Nat
  sat : Bool
  rm : Rm
  sfmt : Tag
  dfmt : Tag
  deriving DecidableEq, Repr

/-- The control word's fields and checks: reserved bits, formats, a source tag, PART within the ratio (R148). -/
def cvtCtl (x t : TVal) : Option CvtCtl :=
  let c := t.val.setWidth 24
  let d := c.extractLsb' 0 4
  let sf := c.extractLsb' 4 4
  let src := if sf = 0 then x.tag else sf
  let ns := 2048 / tagWidth src
  let nd := 2048 / tagWidth d
  let part := (c.extractLsb' 13 3).toNat
  if c.extractLsb' 16 8 ≠ 0 ∨ d = 0 ∨ 0xD ≤ d.toNat ∨ 0xD ≤ sf.toNat ∨ src = 0 ∨ max ns nd / min ns nd ≤ part then none
  else
    some { part := part, amn := (c.extractLsb' 11 2).toNat, sat := c.getLsbD 10,
           rm := Rm.ofDst ((c.extractLsb' 8 2).zeroExtend 9), sfmt := src, dfmt := d }

/-- The source element a destination element converts, if it converts one (R149). -/
def cvtSource (c : CvtCtl) (k : W256) (e : Nat) : Option Nat :=
  let ns := 2048 / tagWidth c.sfmt
  let nd := 2048 / tagWidth c.dfmt
  let j : Int := if ns ≤ nd then Int.ofNat e - Int.ofNat (c.part * ns) else Int.ofNat (e + c.part * nd)
  if 0 ≤ j ∧ j < Int.ofNat ns ∧ active k (tagWidth c.sfmt) j.toNat then some j.toNat else none

/-- The converted vector and its flags (R149): elements not converted are y's bits. -/
def cvtVec (c : CvtCtl) (v : VIn) : TVal × Flags :=
  let wd := tagWidth c.dfmt
  vecOfFl c.dfmt wd ((List.range (2048 / wd)).map fun e =>
    match cvtSource c v.k e with
    | some j =>
      let x := srcElem c.sfmt v.x.val.toNat j
      let r := convertEl c.dfmt c.rm c.sat x.1
      (r.1, elFlags (r.2 ||| x.2))
    | none => (elemAt v.y.val.toNat wd e, 0))

/-- The running maximum over the converted source elements, from a value, with NANSEEN for a NaN (R111). -/
def cvtAmax (c : CvtCtl) (v : VIn) (m : W32) : W32 × Flags :=
  (List.range (2048 / tagWidth c.dfmt)).foldl (fun (a : W32 × Flags) e =>
    match cvtSource c v.k e with
    | some j =>
      match magFp32 (srcElem c.sfmt v.x.val.toNat j).1 with
      | some g => (if a.1.toNat < g then BitVec.ofNat 32 g else a.1, a.2)
      | none => (a.1, a.2 ||| Flags.nanSeen)
    | none => a) (m, 0)

/-- CVT's result (R149). -/
def vaCvt (v : VIn) : VOut := (cvtCtl v.x v.t).map fun c => cvtVec c v
def execCvt (w : Slot) (s : State) : Host.Outcome State Fault Refusal := vaRun 4 vaCvt w s
def execCvtExt (w : Slot) (s : State) : Host.Outcome State Fault Refusal := vaRunExt 4 vaCvt w s

/-- CVT.AMAX fired: the conversion, and the am write that lands 4 sc after issue (R40, R111, R150). -/
def amaxFire (t : TVal) (s : State) : State :=
  let v := s.vaIn t
  match cvtCtl v.x v.t with
  | none => s.raiseSlot Err.tagMismatch
  | some c =>
    let m := cvtAmax c v (s.arch.regs.getAm c.amn).vis
    let r := cvtVec c v
    let s1 := (s.pushResult s.vaPort 4 r.1 (r.2 ||| m.2)).chargeHere 1 1
    s1.setArch { s1.arch with
      amPend := s1.arch.amPend ++ [{ am := c.amn, slot := s.frame.cur.slot, issued := s.arch.sclk,
                                     due := s.arch.sclk + 4, val := m.1 }] }
/-- CVT.AMAX; the handler has no am registers (R150). -/
def execCvtAmax (w : Slot) (s : State) : Host.Outcome State Fault Refusal :=
  .next (if s.inHandler then s.raiseSlot Err.illegalBundle else s.trigger w amaxFire)
def execCvtAmaxExt (w : Slot) (s : State) : Host.Outcome State Fault Refusal :=
  .next (if s.inHandler then s.raiseSlot Err.illegalBundle else s.triggerExt w 0x100 0x101 amaxFire)

end Sys2Proof.Machine
end

