-- ==== Sys2Proof/Machine/LoadStore.lean ====
section
/-!
DEFINITION. The scratch: loads, stores, atomics, FILL, LDSC, WPSET, PROBE and EVAC of slots 4 and 5 (R155 to R168), the
performing of accesses (R157, R158), watchpoints (R164, R165), notifications (R182, R295), data loss (R250).
-/
namespace Sys2Proof.Machine

/-! ## Operands and checks (R155, R156) -/

def State.lsX (s : State) : TVal := s.opnd 0x100
def State.lsY (s : State) : W64 := (s.opnd 0x101).val.setWidth 64
def State.lsK (s : State) : W256 := (s.opnd 0x102).val.setWidth 256
/-- The result port of the cursor's LS unit. -/
def State.lsPort (s : State) : Nat := 0x92 + s.frame.cur.slot
/-- A scratch address: uns(t[31:0]) (R156). -/
def TVal.addr (t : TVal) : Nat := (t.val.setWidth 32).toNat

/-- The errors of a range of n bytes with an alignment (R156). -/
def Core.rangeErrs (k : Core) (a n al : Nat) : List (Nat × W64) :=
  (if k.scratchSize < a + n then [(Err.scratchBounds, BitVec.ofNat 64 a)] else []) ++
    (if a % al = 0 then [] else [(Err.alignment, BitVec.ofNat 64 a)])
/-- Errors raised, or else an effect. -/
def State.orElse (s : State) (errs : List (Nat × W64)) (f : State → State) : State :=
  if errs.isEmpty then f s else { s with frame := { s.frame with raised := s.frame.raised ++ errs } }

/-- An operand error, or a tag mismatch, of the cursor's slot. -/
def State.operandErr (s : State) (bad : Bool) : List (Nat × W64) :=
  if bad then [(Err.operand, BitVec.ofNat 64 s.frame.cur.slot)] else []
def State.tagErr (s : State) (bad : Bool) : List (Nat × W64) :=
  if bad then [(Err.tagMismatch, BitVec.ofNat 64 s.frame.cur.slot)] else []

/-- A trigger of LSn in port form. -/
def lsRun (op : TVal → State → State) (w : Slot) (s : State) : Host.Outcome State Fault Refusal := .next (s.trigger w op)
/-- A trigger of LSn in extended form. -/
def lsRunExt (op : TVal → State → State) (w : Slot) (s : State) : Host.Outcome State Fault Refusal :=
  .next (s.triggerExt w 0x100 0x101 op)
/-- The same for the triggers whose bundle must carry F and W (R166). -/
def askRun (op : TVal → State → State) (w : Slot) (s : State) : Host.Outcome State Fault Refusal :=
  .next (if s.frame.hdr.f && s.frame.hdr.w then s.trigger w op else s.raiseSlot Err.illegalBundle)
def askRunExt (op : TVal → State → State) (w : Slot) (s : State) : Host.Outcome State Fault Refusal :=
  .next (if s.frame.hdr.f && s.frame.hdr.w then s.triggerExt w 0x100 0x101 op else s.raiseSlot Err.illegalBundle)

/-! ## Loads (R157, R159, R160) -/

/-- An issue sequence number taken on the cursor's core. -/
def State.takeSeq (s : State) : Nat × State := (s.core.seq, s.setCore { s.core with seq := s.core.seq + 1 })

/-- A load of elements: performs in the core cycle after the first sub-bundle, delivers 3 sc after issue (R157). -/
def State.queueLoad (s : State) (addrs : List Nat) (bytes : Nat) (sext : Bool) (tag : Tag) : State :=
  let q := s.takeSeq
  q.2.queueAccess (s.frame.cyc0 + 1) (.load addrs bytes sext tag s.lsPort (s.arch.sclk + 3) q.1)

/-- A scalar load. -/
def ldOp (bytes : Nat) (sext : Bool) (t : TVal) (s : State) : State :=
  s.orElse (s.core.rangeErrs t.addr bytes bytes) fun s => s.queueLoad [t.addr] bytes sext 0
/-- VLD: 256 bytes, tagged x[3:0] (R159). -/
def vldOp (t : TVal) (s : State) : State :=
  let f : Tag := s.lsX.val.setWidth 4
  s.orElse (s.tagErr (decide (0xD ≤ f.toNat)) ++ s.core.rangeErrs t.addr 256 8) fun s => s.queueLoad [t.addr] 256 false f

/-- VLDS's element addresses: A + j * s, as integers (R160). -/
def strided (a : Nat) (stride : Int) (n : Nat) : List Int := (List.range n).map fun j => Int.ofNat a + Int.ofNat j * stride
/-- The errors of gathered elements of n bytes (R156). R320's detail is an address: that of the first element out of bounds, and of the
first misaligned, in element order: DESIGN CHOICE, unsafe (assumption 96). -/
def Core.gatherErrs (k : Core) (l : List Int) (n : Nat) : List (Nat × W64) :=
  ((l.find? fun a => decide (a < 0) || decide (Int.ofNat k.scratchSize < a + Int.ofNat n)).map
      fun a => (Err.scratchBounds, BitVec.ofInt 64 a)).toList ++
    ((l.find? fun a => decide (a % Int.ofNat n ≠ 0)).map fun a => (Err.alignment, BitVec.ofInt 64 a)).toList
/-- VLDS: a strided gather (R160). The addresses are examined where the format gives the elements whole bytes. -/
def vldsOp (t : TVal) (s : State) : State :=
  let x := s.lsX.val
  let f : Tag := x.setWidth 4
  let w := if f = 0 then 32 else tagWidth f
  let l := strided t.addr (x.extractLsb' 32 32).toInt (2048 / w)
  let bad := decide (0xD ≤ f.toNat)
  let errs := s.tagErr bad ++ s.operandErr ((!bad && w == 4) || x.extractLsb' 4 28 != 0 || x.extractLsb' 64 1984 != 0) ++
    (if bad || w == 4 then [] else s.core.gatherErrs l (w / 8))
  s.orElse errs fun s => s.queueLoad (l.map Int.toNat) (w / 8) false f

/-! ## Stores (R157, R159, R162) -/

/-- A store: performs two core cycles after the last sub-bundle (R157); it forbids a rollback (R60). -/
def State.queueStore (s : State) (a : Nat) (bytes : List (Option Byte)) (kind : Nat) : State :=
  (s.queueAccess (s.frame.cyc1 + 2) (.store a bytes kind)).noRoll
/-- ST.B, ST.H, ST.W, ST.D, VST. -/
def stOp (bytes al kind : Nat) (t : TVal) (s : State) : State :=
  s.orElse (s.core.rangeErrs t.addr bytes al) fun s =>
    s.queueStore t.addr ((leBytes bytes s.lsX.val.toNat).map some) kind
/-- VSTM: byte i of x where k bit i is 1 (R159). -/
def vstmOp (t : TVal) (s : State) : State :=
  s.orElse (s.core.rangeErrs t.addr 256 8) fun s =>
    s.queueStore t.addr ((List.range 256).map fun i =>
      if s.lsK.getLsbD i then some (s.lsX.val.extractLsb' (8 * i) 8) else none) 5
/-- FILL: uns(y) bytes of the repeated pattern x[63:0] (R162). -/
def fillOp (t : TVal) (s : State) : State :=
  let n := s.lsY.toNat
  s.orElse (s.operandErr (n % 8 != 0 || decide (n < 8) || decide (256 < n)) ++ s.core.rangeErrs t.addr n 8) fun s =>
    s.queueStore t.addr ((List.range n).map fun i => some (s.lsX.val.extractLsb' (8 * (i % 8)) 8)) 6

/-! ## Atomics (R161) -/

/-- The new word of an atomic; none for a failed ATCAS. -/
def atomicWord (op : Nat) (old x y : W32) : Option W32 :=
  match op with
  | 0 => some (old + x)
  | 1 => some (if x.slt old then x else old)
  | 2 => some (if old.slt x then x else old)
  | 3 => some (if x < old then x else old)
  | 4 => some (if old < x then x else old)
  | 5 => some (old &&& x)
  | 6 => some (old ||| x)
  | 7 => some x
  | _ => if old = y then some x else none
/-- An atomic: performs as a store, delivers the old word 4 sc after issue. -/
def atOp (op : Nat) (t : TVal) (s : State) : State :=
  s.orElse (s.core.rangeErrs t.addr 4 4) fun s =>
    let q := s.takeSeq
    (q.2.queueAccess (s.frame.cyc1 + 2) (.atomic t.addr op (s.lsX.val.setWidth 32) (s.lsY.setWidth 32) s.lsPort
      (s.arch.sclk + 4) q.1)).noRoll

/-! ## LDSC and WPSET (R163, R164) -/

/-- LDSC: N scale codes of x pushed at the store cycle; the outstanding count rises at issue. Bits [63:32] of t that are not zero are
an operand error, here and for EVAC: DESIGN CHOICE, unsafe (assumption 84). -/
def ldscOp (t : TVal) (s : State) : State :=
  let c := t.c64
  let x := s.lsX
  let e := c.getLsbD 0
  let f := (c.extractLsb' 8 8).toNat
  let n := (c.extractLsb' 16 6).toNat + 1
  let g := s.core.eng e
  let errs := s.tagErr (x.tag != 7 && x.tag != 4 && x.tag != 5) ++
    s.operandErr (c &&& ~~~0x3FFF01 != 0 || decide (256 < f + n)) ++
    (if g.holder = BitVec.ofNat 3 s.frame.cur.ctx then [] else [(Err.engineHolder, BitVec.ofNat 64 e.toNat)]) ++
    (if 64 < g.saffron.length + g.outLdsc + n then [(Err.saffronOverflow, BitVec.ofNat 64 e.toNat)] else [])
  s.orElse errs fun s =>
    let s1 := s.setCore (s.core.setEng e { g with outLdsc := g.outLdsc + n })
    (s1.queueAccess (s.frame.cyc1 + 2)
      (.ldsc e ((List.range n).map fun j => (x.tag, x.val.extractLsb' (8 * (f + j)) 8)))).noRoll

/-- WPSET: a watchpoint replaced at the store cycle. -/
def wpsetOp (t : TVal) (s : State) : State :=
  let x := s.lsX.val
  let y := s.lsY
  let mode := (y.extractLsb' 2 2).toNat
  let errs := s.core.rangeErrs t.addr 8 8 ++ s.operandErr (mode == 3 || y.extractLsb' 4 60 != 0)
  s.orElse errs fun s =>
    (s.queueAccess (s.frame.cyc1 + 2) (.wpset (y.extractLsb' 0 2).toNat mode t.addr (x.setWidth 64)
      (x.extractLsb' 64 64))).noRoll

/-! ## PROBE and EVAC (R166 to R168) -/

/-- PROBE: the range, the access and k are noted; the answer's code is derived when it lands (R167). -/
def probeOp (t : TVal) (s : State) : State :=
  let x := s.lsX.val
  let k := (x.extractLsb' 24 4).toNat
  if x.extractLsb' 21 3 ≠ 0 ∨ x.extractLsb' 28 2020 ≠ 0 ∨ k = 0 ∨ k = 15 then s.raiseSlot Err.operand
  else
    let q := s.takeSeq
    let d := q.2.draw
    let w : AnswerWait := { kind := 0, pk := k, slot := s.frame.cur.slot, issued := s.arch.sclk, code := 0,
                            arg := t.c64.toNat * 2 ^ 21 + (x.extractLsb' 0 21).toNat,
                            due := s.frame.cyc0 + 1 + Config.probeLatency d.1, seq := q.1 }
    (d.2.setCtx { d.2.ctx with answers := d.2.ctx.answers ++ [w] }).noRoll

/-- Whether an engine of a core is Busy or a communication step is in progress (R168). -/
def State.evacBusy (s : State) (core : Nat) : Bool :=
  (s.coreAt core).me0.busy || (s.coreAt core).me1.busy || s.inStep core
/-- The code of an evacuation to a point j (R168). -/
def State.evacCode (s : State) (core j : Nat) : Nat :=
  if s.evacBusy core then 2 else if ((s.coreAt core).rows.evacPlan j).fits then 0 else 1

/-- EVAC: the code is derived at issue, an engine that an MCALL of the same bundle takes being Busy; the answer lands
16 + 2|D| + 128|DL| core cycles later with code 0, else 16; the core issues nothing meanwhile and its copy-engine accesses are held
(R168). All bits of t but [2:0] are checked (assumption 84). -/
def evacOp (t : TVal) (s : State) : State :=
  let x := s.lsX.val
  let k := (x.extractLsb' 0 4).toNat
  if t.c64.extractLsb' 3 61 ≠ 0 ∨ x.extractLsb' 4 2044 ≠ 0 ∨ k = 0 ∨ k = 15 then s.raiseSlot Err.operand
  else
    let j := (t.c64.extractLsb' 0 3).toNat
    let code := if s.frame.calls then 2 else s.evacCode s.frame.cur.core j
    let n := if code = 0 then (s.core.rows.evacPlan j).cycles else 16
    let q := s.takeSeq
    let w : AnswerWait := { kind := 1, pk := k, slot := s.frame.cur.slot, issued := s.arch.sclk, code := code, arg := j,
                            due := s.frame.cyc0 + n, seq := q.1 }
    let s1 := q.2.setCtx { s.ctx with answers := s.ctx.answers ++ [w] }
    (s1.setCore { s1.core with hold := max s1.core.hold (s.frame.cyc0 + n) }).noRoll

/-- A code at LSn.q: in the port, and, among the results due at the sc of the bundle that follows, in the place of its issue
(R45, R46). -/
def CtxArch.answer (a : CtxArch) (w : AnswerWait) (n : Nat) : CtxArch :=
  { a with ports := a.ports.put (0x92 + w.slot) (plain n),
           pipe := a.pipe ++ [{ seq := w.seq, port := 0x92 + w.slot, due := w.issued + 1, res := plain n, flags := 0 }] }
/-- An answer's landing: the predicate as a move from its slot, and the code at LSn.q (R45, R166). -/
def State.landAnswer (s : State) (core c : Nat) (w : AnswerWait) (val : Bool) (code : Option Nat) : State :=
  let k := s.coreAt core
  let x := k.ctx c
  let a := { x.cur with regs := x.cur.regs.landP w.pk val }
  let b := match code with
    | some n => a.answer w n
    | none => a
  s.setCoreAt core (k.setCtx c { x with cur := b, answers := x.answers.erase w })

/-- The first answer of a kind a context waits for that is due at or before a time. -/
def Ctx.answerOf (x : Ctx) (kind upTo : Nat) : Option AnswerWait :=
  x.answers.find? fun w => w.kind == kind && decide (w.due ≤ upTo)

/-- PROBE_ANSWER: every page translated under the partition's ASID; the code and, where a page is absent, one page request
(R167). Nothing where no answer is due. -/
def execProbeAnswer (s : State) : Host.Outcome State Fault Refusal :=
  let core := s.frame.cur.core
  let c := s.frame.cur.ctx
  match s.ctx.answerOf 0 s.core.cyc with
  | none => .next s
  | some w =>
    let part := s.partOfCore core
    let die := dieOf core
    let va := BitVec.ofNat 64 (w.arg / 2 ^ 21)
    let write := (w.arg / 2 ^ 20) % 2 == 1
    match s.pageScan part die va (w.arg % 2 ^ 20 + 1) write with
    | (true, _) => .next (s.landAnswer core c w false (some 3))
    | (false, none) => .next (s.landAnswer core c w true (some 0))
    | (false, some page) =>
      let name := (s.launch.map fun l => contextName l s.core core c).getD []
      let r := s.askPage part die { part := part, asid := s.asid part die, page := page, write := write, pool := 0 } 1 name
      .next (r.2.landAnswer core c w false (some r.1))

/-- EVAC_ANSWER: with code 0 the rows and slots move and FLOOR is set; the code lands (R168). -/
def execEvacAnswer (s : State) : Host.Outcome State Fault Refusal :=
  let core := s.frame.cur.core
  match s.ctx.answerOf 1 s.core.cyc with
  | none => .next s
  | some w =>
    let p := s.core.rows.evacPlan w.arg
    if w.code = 0 ∧ p.fits then
      let s1 := (s.setCore (s.core.evacuate p s.pcc)).chargeHere 9 (p.d.length + 64 * p.dl.length)
      .next (s1.landAnswer core s.frame.cur.ctx w true (some 0))
    else .next (s.landAnswer core s.frame.cur.ctx w false (some (max w.code 1)))

/-- LEASE_ANSWER: the planner's grant for at most the time asked, or its refusal; a lease held on the core, or BOOST not
accepted, makes it a refusal (R183, R350, R351). A grant debits the pool by its duration times Pb. -/
def execLeaseAnswer (granted : Bool) (dur : Nat) (s : State) : Host.Outcome State Fault Refusal :=
  let core := s.frame.cur.core
  match s.ctx.answers.find? fun w => w.kind == 2 with
  | none => .next s
  | some w =>
    let k := s.core
    let part := s.partOfCore core
    let p := s.part part
    let g := min dur w.arg
    if granted && k.lease.isNone && p.accepts 1 && decide (0 < g) then
      let e := g * k.pwr.pb
      let s1 := (s.setPart part { p with pool := p.pool - Int.ofNat e }).setCore
        { k with lease := some { ctx := s.frame.cur.ctx, left := g, granted := g, debit := e } }
      .next (s1.landAnswer core s.frame.cur.ctx w true none)
    else .next (s.landAnswer core s.frame.cur.ctx w false none)

/-! ## Watchpoints (R164, R165, R329) -/

/-- The last write of a cycle that touches the 8 bytes at w. -/
def touching (l : List ScrWrite) (w : Nat) : Option ScrWrite :=
  l.reverse.find? fun x => (List.range 8).any fun i =>
    decide (x.addr ≤ w + i) && decide (w + i < x.addr + x.len) && !x.off.contains (w + i - x.addr)

/-- Watchpoint i compared at the end of a cycle with the scratch as it stood before (R165). -/
def Core.watchOne (k : Core) (pcc : Nat) (before : Memory) (l : List ScrWrite) (i : Nat) : Core :=
  let p := SMap.get {} k.wps i
  if p.mode = 0 then k
  else
    match touching l p.w with
    | none => k
    | some x =>
      let o := BitVec.ofNat 64 (before.readLe p.w 8)
      let d := BitVec.ofNat 64 (k.scratch.readLe p.w 8)
      let hit := if p.mode = 1 then (d &&& p.k) == (p.v &&& p.k) else ((d ^^^ o) &&& p.k) != 0
      if hit then
        let code := if x.code = 0 then (if x.ctx = p.owner && !x.far then 0 else 1) else x.code
        { k with wps := k.wps.put i { p with hits := p.hits ||| BitVec.ofNat 5 (2 ^ p.owner) } }.trace pcc p.owner 8 i
          (i + 4 * code + 16 * (x.ctx % 8) + 128 * x.far.toNat + 256 * (d.toNat % 2 ^ 32))
      else k
/-- A write of the cycle noted for the watchpoints. -/
def Core.wrote (k : Core) (w : ScrWrite) : Core := { k with writes := k.writes ++ [w] }
/-- The four watchpoints of a core compared with the cycle's writes, once, at its end. -/
def Core.watchAll (k : Core) (pcc : Nat) : Core :=
  let k1 := if k.writes.isEmpty then k else (List.range 4).foldl (fun k i => k.watchOne pcc k.before k.writes i) k
  { k1 with writes := [] }

/-! ## Notifications (R182, R295) -/

/-- A post to the launch's notification area: an entry, or the lost count; posts whose writes fault are counted by the
device and added at the next that translates. -/
def State.post (s : State) (core c : Nat) (t : W32) : State :=
  match s.launchAt core with
  | none => s
  | some l =>
    if l.lr.notify = 0 then s
    else
      let die := dieOf core
      let area := l.lr.notify
      let lose := fun (s : State) => s.modLaunchAt core fun l => { l with drops := l.drops + 1 }
      match s.unitRead l.part die (area + 8) 8, s.unitRead l.part die (area + 16) 8 with
      | .ok a, .ok b =>
        let rd := leNat a.1
        let lost := leNat b.1
        let s := s.crossed l.part die (area + 8) 16 false
        if (l.widx - BitVec.ofNat 64 rd).toNat = 256 then
          match s.unitWrite l.part die (area + 16) (leBytes 8 ((lost + l.drops + 1) % 2 ^ 32)) with
          | .ok s1 => s1.modLaunchAt core fun l => { l with drops := 0 }
          | .error _ => lose s
        else
          let e := leBytes 4 l.tag.toNat ++ leBytes 4 0 ++ contextName l (s.coreAt core) core c ++ leBytes 4 t.toNat ++
            leBytes 8 s.pcc
          match s.vcheck l.part die area 24 true,
              s.unitWrite l.part die (area + 64 + BitVec.ofNat 64 (32 * (l.widx.toNat % 256))) e with
          | none, .ok s1 =>
            let s2 := if l.drops = 0 then s1 else
              match s1.unitWrite l.part die (area + 16) (leBytes 8 ((lost + l.drops) % 2 ^ 32)) with
              | .ok x => x
              | .error _ => s1
            match s2.unitWrite l.part die area (leBytes 8 (l.widx + 1).toNat) with
            | .ok s3 => (s3.modLaunchAt core fun l => { l with widx := l.widx + 1, drops := 0 }).raiseIrq (.hart l.hart 2 0)
            | .error _ => lose s
          | _, _ => lose s
      | _, _ => lose s

/-- The accesses of a context's posts give way to others: the words of the notification area's header, and the next entry (R345). -/
def State.postWaits (s : State) (core : Nat) : Bool :=
  match s.launchAt core with
  | none => false
  | some l =>
    l.lr.notify != 0 && (s.givesWayOn l.part (dieOf core) l.lr.notify 24 ||
      s.givesWayOn l.part (dieOf core) (l.lr.notify + 64 + BitVec.ofNat 64 (32 * (l.widx.toNat % 256))) 32)
/-- A SIGNAL that waits for its channel. -/
def State.signalWaits (s : State) (core : Nat) (x : Access) : Bool :=
  match x.kind with
  | .signal _ => s.postWaits core
  | _ => false

/-! ## Performing (R157, R158, R249, R250) -/

/-- A result read from the scratch put in flight; one of an earlier phase belongs to the state a rollback restores (R60). In a context
already saved the last result to be read delivers them all, in the order of their delivery sc, then of their issue (R21, R46). -/
def Core.putInFlight (k : Core) (c : Nat) (sclk : W64) (r : InFlight) (enables : Flags) : Core :=
  let x := k.ctx c
  let a := { x.cur with pipe := x.cur.pipe ++ [r] }
  if x.saved then
    let b := if k.waitsLs c then a else a.deliverAll enables
    k.setCtx c { x with cur := b, start := b }
  else
    let early := decide (sclk.toNat < x.start.sclk.toNat)
    k.setCtx c { x with cur := a, start := if early then { x.start with pipe := x.start.pipe ++ [r] } else x.start }

/-- A load's value from the scratch (R159, R160). -/
def loadValue (m : Memory) (addrs : List Nat) (bytes : Nat) (sext : Bool) (tag : Tag) : TVal :=
  let v := BitVec.ofNat 2048 (leNat (addrs.flatMap fun a => m.readBytes a bytes))
  if sext then { val := ((v.setWidth (8 * bytes)).signExtend 32).setWidth 2048, tag := tag } else { val := v, tag := tag }

/-- The aligned words of a range. -/
def wordsOf (a n : Nat) : List Nat := if n = 0 then [] else (List.range ((a + n - 1) / 8 - a / 8 + 1)).map fun i => 8 * (a / 8 + i)
/-- The first erring word a read of a range meets. -/
def Rows.readLoss (x : Rows) (a n : Nat) : Option Nat :=
  if x.errs = [] then none else (wordsOf a n).find? fun w => x.badByte w
/-- Whether a masked store writes all 8 bytes of an aligned word. -/
def wholeWord (a : Nat) (bs : List (Option Byte)) (w : Nat) : Bool :=
  (List.range 8).all fun i => decide (a ≤ w + i) && ((bs[w + i - a]?).getD none).isSome
/-- Whether it writes a byte of the word. -/
def touchesWord (a : Nat) (bs : List (Option Byte)) (w : Nat) : Bool :=
  (List.range 8).any fun i => decide (a ≤ w + i) && ((bs[w + i - a]?).getD none).isSome
/-- The first erring word a store of fewer than its 8 bytes meets (R249). -/
def Rows.storeLoss (x : Rows) (a : Nat) (bs : List (Option Byte)) : Option Nat :=
  if x.errs = [] then none
  else (wordsOf a bs.length).find? fun w => x.badByte w && touchesWord a bs w && !wholeWord a bs w

/-- Bytes stored, masked ones left. -/
def maskWrite (m : Memory) (a : Nat) (bs : List (Option Byte)) : Memory :=
  match bs with
  | [] => m
  | some b :: r => maskWrite (m.write a b) (a + 1) r
  | none :: r => maskWrite m (a + 1) r

/-- A store clears the errors of the words it writes whole; one of fewer bytes reads the word, and so corrects a single-bit
error (R249). -/
def Rows.storeClear (x : Rows) (a : Nat) (bs : List (Option Byte)) : Rows :=
  if x.errs = [] then x
  else (wordsOf a bs.length).foldl (fun x w =>
    if wholeWord a bs w then x.clearByte w else if touchesWord a bs w then x.fixBytes w 8 else x) x
/-- A read of scratch elements corrects the single-bit errors of their words. -/
def Rows.fixAll (x : Rows) (addrs : List Nat) (n : Nat) : Rows :=
  if x.errs = [] then x else addrs.foldl (fun x a => x.fixBytes a n) x

/-- A data-loss of an access: its context stops, the cause on the access's bundle (R250). -/
def State.accessLoss (s : State) (core : Nat) (x : Access) (w : Nat) : State :=
  s.stop core x.ctx { errs := [(Err.dataLoss, BitVec.ofNat 64 ((s.coreAt core).rows.rowOfByte w))], pc := x.pc,
                      sclk := x.sclk }

/-- A store record of the ring (R329, TYPE 0x6). -/
def storePayload (a slot kind len : Nat) : Nat :=
  a % 2 ^ 22 + 2 ^ 22 * (if slot = 5 then 1 else 0) + 2 ^ 23 * kind + 2 ^ 26 * (if kind = 6 then len / 8 - 1 else 0)

/-- One access performed, its write noted for the watchpoints. -/
def State.performOne (s : State) (core : Nat) (x : Access) : State :=
  let k := s.coreAt core
  match x.kind with
  | .load addrs bytes sext tag port due seq =>
    match addrs.findSome? fun a => k.rows.readLoss a bytes with
    | some w => s.accessLoss core x w
    | none =>
      let r : InFlight := { seq := seq, port := port, due := due, res := loadValue k.scratch addrs bytes sext tag, flags := 0 }
      let k1 := { k with rows := k.rows.fixAll addrs bytes }
      (s.setCoreAt core (k1.putInFlight x.ctx x.sclk r (s.enablesOf core x.ctx))).charge core 3 ((addrs.length * bytes + 7) / 8)
  | .store a bs kind =>
    match k.rows.storeLoss a bs with
    | some w => s.accessLoss core x w
    | none =>
      let k1 := k.trace s.pcc x.ctx 6 x.slot (storePayload a x.slot kind bs.length)
      let off := (List.range bs.length).filter fun i => ((bs[i]?).getD none).isNone
      if bs.all Option.isNone then s.setCoreAt core k1
      else
        let k2 := { k1 with scratch := maskWrite k.scratch a bs, rows := k.rows.storeClear a bs }
        (s.setCoreAt core (k2.wrote { addr := a, len := bs.length, code := 0, ctx := x.ctx, off := off })).charge core 3
          ((bs.length - off.length + 7) / 8)
  | .atomic a op u v port due seq =>
    match k.rows.readLoss a 4 with
    | some w => s.accessLoss core x w
    | none =>
      let old := BitVec.ofNat 32 (k.scratch.readLe a 4)
      let r : InFlight := { seq := seq, port := port, due := due, res := plain old.toNat, flags := 0 }
      let k1 := { k with rows := k.rows.fixBytes a 4 }
      let k2 := (k1.putInFlight x.ctx x.sclk r (s.enablesOf core x.ctx)).trace s.pcc x.ctx 6 x.slot (storePayload a x.slot 7 4)
      let s1 := (s.setCoreAt core k2).charge core 3 1
      match atomicWord op old u v with
      | none => s1
      | some n =>
        let k3 := s1.coreAt core
        s1.setCoreAt core (({ k3 with scratch := k3.scratch.writeLe a 4 n.toNat } : Core).wrote
          { addr := a, len := 4, code := 0, ctx := x.ctx })
  | .shape a tile =>
    let k1 := { k with scratch := k.scratch.writeLe (a + 0x28) 8 (tile &&& 0xFFFFFFFFFFFF).toNat,
                       rows := k.rows.clearByte (a + 0x28) }
    (s.setCoreAt core (k1.wrote { addr := a + 0x28, len := 8, code := 2, ctx := x.ctx })).charge core 3 1
  | .wpset i mode w v m =>
    let d : Watchpoint := { owner := x.ctx, mode := mode, w := w, v := v, k := m, hits := (SMap.get ({} : Watchpoint) k.wps i).hits }
    s.setCoreAt core { k with wps := k.wps.put i d }
  | .ldsc e l =>
    let g := k.eng e
    s.setCoreAt core (k.setEng e { g with saffron := g.saffron ++ l, outLdsc := g.outLdsc - l.length })
  | .mput slot row bytes =>
    let r := { k.rows with errs := k.rows.errs.filter fun e =>
      ¬(e.1 / 2048 = 512 + k.rows.physSlot slot ∧ e.1 % 2048 / 32 = row) }
    (s.setCoreAt core { k with larder := k.larder.writeBytes (16384 * slot + 256 * row) bytes, rows := r }).charge core 4 1
  | .signal t => s.post core x.ctx t

/-- The order of R158 within a cycle: loads, LS0, LS1, then slots 6 and 7. -/
def Access.rank (x : Access) : Nat :=
  match x.kind with
  | .load .. => 0
  | _ => x.slot

/-- The accesses of a core due in its present cycle performed in order (R157, R158). An access whose context stops on the way
is cancelled with it (R59); a SIGNAL of a partition at background priority waits for its channels (R345). -/
def State.performDue (s : State) (core : Nat) : State :=
  let k := s.coreAt core
  let due := sortBy (fun x y => decide (x.rank ≤ y.rank)) (k.accs.filter fun x => decide (x.due ≤ k.cyc) && !s.signalWaits core x)
  due.foldl (fun (s : State) x =>
    let k := s.coreAt core
    if k.accs.contains x then (s.setCoreAt core { k with accs := k.accs.erase x }).performOne core x else s) s

/-- SCRATCH_ACCESS_PERFORM (R157). -/
def execScratchAccessPerform (s : State) : Host.Outcome State Fault Refusal := .next (s.performDue s.frame.cur.core)

/-! ## The meanings -/

/-- LD.B: 8 bits sign-extended (R159). -/
def execLdB (w : Slot) (s : State) : Host.Outcome State Fault Refusal := lsRun (ldOp 1 true) w s
def execLdBExt (w : Slot) (s : State) : Host.Outcome State Fault Refusal := lsRunExt (ldOp 1 true) w s

/-- LD.BU: 8 bits zero-extended (R159). -/
def execLdBu (w : Slot) (s : State) : Host.Outcome State Fault Refusal := lsRun (ldOp 1 false) w s
def execLdBuExt (w : Slot) (s : State) : Host.Outcome State Fault Refusal := lsRunExt (ldOp 1 false) w s

/-- LD.H: 16 bits sign-extended (R159). -/
def execLdH (w : Slot) (s : State) : Host.Outcome State Fault Refusal := lsRun (ldOp 2 true) w s
def execLdHExt (w : Slot) (s : State) : Host.Outcome State Fault Refusal := lsRunExt (ldOp 2 true) w s

/-- LD.HU: 16 bits zero-extended (R159). -/
def execLdHu (w : Slot) (s : State) : Host.Outcome State Fault Refusal := lsRun (ldOp 2 false) w s
def execLdHuExt (w : Slot) (s : State) : Host.Outcome State Fault Refusal := lsRunExt (ldOp 2 false) w s

/-- LD.W: 32 bits (R159). -/
def execLdW (w : Slot) (s : State) : Host.Outcome State Fault Refusal := lsRun (ldOp 4 false) w s
def execLdWExt (w : Slot) (s : State) : Host.Outcome State Fault Refusal := lsRunExt (ldOp 4 false) w s

/-- VLD: 256 bytes, tagged x[3:0] (R159). -/
def execVld (w : Slot) (s : State) : Host.Outcome State Fault Refusal := lsRun vldOp w s
def execVldExt (w : Slot) (s : State) : Host.Outcome State Fault Refusal := lsRunExt vldOp w s

/-- VLDS: a strided gather (R160). -/
def execVlds (w : Slot) (s : State) : Host.Outcome State Fault Refusal := lsRun vldsOp w s
def execVldsExt (w : Slot) (s : State) : Host.Outcome State Fault Refusal := lsRunExt vldsOp w s

/-- ST.B: x[7:0] (R159). -/
def execStB (w : Slot) (s : State) : Host.Outcome State Fault Refusal := lsRun (stOp 1 1 0) w s
def execStBExt (w : Slot) (s : State) : Host.Outcome State Fault Refusal := lsRunExt (stOp 1 1 0) w s

/-- ST.H: x[15:0] (R159). -/
def execStH (w : Slot) (s : State) : Host.Outcome State Fault Refusal := lsRun (stOp 2 2 1) w s
def execStHExt (w : Slot) (s : State) : Host.Outcome State Fault Refusal := lsRunExt (stOp 2 2 1) w s

/-- ST.W: x[31:0] (R159). -/
def execStW (w : Slot) (s : State) : Host.Outcome State Fault Refusal := lsRun (stOp 4 4 2) w s
def execStWExt (w : Slot) (s : State) : Host.Outcome State Fault Refusal := lsRunExt (stOp 4 4 2) w s

/-- ST.D: x[63:0] (R159). -/
def execStD (w : Slot) (s : State) : Host.Outcome State Fault Refusal := lsRun (stOp 8 8 3) w s
def execStDExt (w : Slot) (s : State) : Host.Outcome State Fault Refusal := lsRunExt (stOp 8 8 3) w s

/-- VST: the 256 bytes of x (R159). -/
def execVst (w : Slot) (s : State) : Host.Outcome State Fault Refusal := lsRun (stOp 256 8 4) w s
def execVstExt (w : Slot) (s : State) : Host.Outcome State Fault Refusal := lsRunExt (stOp 256 8 4) w s

/-- VSTM: the bytes of x that k selects (R159). -/
def execVstm (w : Slot) (s : State) : Host.Outcome State Fault Refusal := lsRun vstmOp w s
def execVstmExt (w : Slot) (s : State) : Host.Outcome State Fault Refusal := lsRunExt vstmOp w s

/-- ATADD: old + X (R161). -/
def execAtadd (w : Slot) (s : State) : Host.Outcome State Fault Refusal := lsRun (atOp 0) w s
def execAtaddExt (w : Slot) (s : State) : Host.Outcome State Fault Refusal := lsRunExt (atOp 0) w s

/-- ATMIN: the signed minimum (R161). -/
def execAtmin (w : Slot) (s : State) : Host.Outcome State Fault Refusal := lsRun (atOp 1) w s
def execAtminExt (w : Slot) (s : State) : Host.Outcome State Fault Refusal := lsRunExt (atOp 1) w s

/-- ATMAX: the signed maximum (R161). -/
def execAtmax (w : Slot) (s : State) : Host.Outcome State Fault Refusal := lsRun (atOp 2) w s
def execAtmaxExt (w : Slot) (s : State) : Host.Outcome State Fault Refusal := lsRunExt (atOp 2) w s

/-- ATMINU: the unsigned minimum (R161). -/
def execAtminu (w : Slot) (s : State) : Host.Outcome State Fault Refusal := lsRun (atOp 3) w s
def execAtminuExt (w : Slot) (s : State) : Host.Outcome State Fault Refusal := lsRunExt (atOp 3) w s

/-- ATMAXU: the unsigned maximum (R161). -/
def execAtmaxu (w : Slot) (s : State) : Host.Outcome State Fault Refusal := lsRun (atOp 4) w s
def execAtmaxuExt (w : Slot) (s : State) : Host.Outcome State Fault Refusal := lsRunExt (atOp 4) w s

/-- ATAND: old and X (R161). -/
def execAtand (w : Slot) (s : State) : Host.Outcome State Fault Refusal := lsRun (atOp 5) w s
def execAtandExt (w : Slot) (s : State) : Host.Outcome State Fault Refusal := lsRunExt (atOp 5) w s

/-- ATOR: old or X (R161). -/
def execAtor (w : Slot) (s : State) : Host.Outcome State Fault Refusal := lsRun (atOp 6) w s
def execAtorExt (w : Slot) (s : State) : Host.Outcome State Fault Refusal := lsRunExt (atOp 6) w s

/-- ATSWP: X (R161). -/
def execAtswp (w : Slot) (s : State) : Host.Outcome State Fault Refusal := lsRun (atOp 7) w s
def execAtswpExt (w : Slot) (s : State) : Host.Outcome State Fault Refusal := lsRunExt (atOp 7) w s

/-- ATCAS: X if old = Y, else no write (R161). -/
def execAtcas (w : Slot) (s : State) : Host.Outcome State Fault Refusal := lsRun (atOp 8) w s
def execAtcasExt (w : Slot) (s : State) : Host.Outcome State Fault Refusal := lsRunExt (atOp 8) w s

/-- FILL: a repeated pattern (R162). -/
def execFill (w : Slot) (s : State) : Host.Outcome State Fault Refusal := lsRun fillOp w s
def execFillExt (w : Slot) (s : State) : Host.Outcome State Fault Refusal := lsRunExt fillOp w s

/-- LDSC: scale entries pushed into a Saffron queue (R163). -/
def execLdsc (w : Slot) (s : State) : Host.Outcome State Fault Refusal := lsRun ldscOp w s
def execLdscExt (w : Slot) (s : State) : Host.Outcome State Fault Refusal := lsRunExt ldscOp w s

/-- PROBE: asks whether a range can be copied (R167). -/
def execProbe (w : Slot) (s : State) : Host.Outcome State Fault Refusal := askRun probeOp w s
def execProbeExt (w : Slot) (s : State) : Host.Outcome State Fault Refusal := askRunExt probeOp w s

/-- WPSET: writes a value watchpoint (R164). -/
def execWpset (w : Slot) (s : State) : Host.Outcome State Fault Refusal := lsRun wpsetOp w s
def execWpsetExt (w : Slot) (s : State) : Host.Outcome State Fault Refusal := lsRunExt wpsetOp w s

/-- EVAC: prepares the core for a lower point (R168). -/
def execEvac (w : Slot) (s : State) : Host.Outcome State Fault Refusal := askRun evacOp w s
def execEvacExt (w : Slot) (s : State) : Host.Outcome State Fault Refusal := askRunExt evacOp w s

end Sys2Proof.Machine
end

