-- ==== Sys2Proof/Machine/Copy.lean ====
section
/-!
DEFINITION. The copy engine: block transfers, shape records, decode tables, streams, XFER lists and CATOM (R169 to R181,
R252, R253), and the system triggers SIGNAL and GMARK (R182).
-/
namespace Sys2Proof.Machine

/-! ## Operands -/

def State.ceX (s : State) : W64 := (s.opnd 0x100).val.setWidth 64
def State.ceY (s : State) : W64 := (s.opnd 0x101).val.setWidth 64

/-- A command accepted: a ring record of TYPE 0x5 (R329), and no rollback of the phase (R60). -/
def State.ceIssued (s : State) (id : Nat) : State := (s.trace 5 (id % 256 + 256 * (s.ceX.toNat % 2 ^ 32))).noRoll
/-- A trigger of CE in port form, with its ID. -/
def ceRun (op : TVal → State → State) (id : Nat) (w : Slot) (s : State) : Host.Outcome State Fault Refusal :=
  .next (s.trigger w fun t s => (op t s).ceIssued id)
/-- A trigger of CE in extended form. -/
def ceRunExt (op : TVal → State → State) (id : Nat) (w : Slot) (s : State) : Host.Outcome State Fault Refusal :=
  .next (s.triggerExt w 0x100 0x101 fun t s => (op t s).ceIssued (id + 0x50))

/-! ## Shape records (R170 to R172) -/

/-- A record's fields from its 64 bytes (R170). -/
def readShape (l : List Byte) : ShapeRec :=
  let w := fun o n => leNat ((l.drop o).take n)
  { base := BitVec.ofNat 64 (w 0 8), dim0 := w 8 4, dim1 := w 0xC 4, dim2 := w 0x10 4, str1 := BitVec.ofNat 64 (w 0x18 8),
    str2 := BitVec.ofNat 64 (w 0x20 8), tile := BitVec.ofNat 64 (w 0x28 8), ext0 := w 0x30 2, ext1 := w 0x32 2,
    ext2 := w 0x34 2, ctrl := BitVec.ofNat 64 (w 0x38 8) }
/-- Reserved fields of a record's bytes: zero (R170). -/
def shapeReserved (l : List Byte) : Bool := (l.drop 0x14).take 4 == leBytes 4 0 && (l.drop 0x36).take 2 == leBytes 2 0

def ShapeRec.fmt (r : ShapeRec) : Tag := r.ctrl.setWidth 4
def ShapeRec.permit (r : ShapeRec) : Bool := r.ctrl.getLsbD 4
def ShapeRec.dti (r : ShapeRec) : Nat := (r.ctrl.extractLsb' 8 4).toNat
def ShapeRec.bits (r : ShapeRec) : Nat := tagWidth r.fmt
/-- T: bytes of the tile (R171). -/
def ShapeRec.size (r : ShapeRec) : Nat := r.ext0 * r.ext1 * r.ext2 * r.bits / 8
/-- Whether a record's fields are legal (R170). -/
def ShapeRec.ok (r : ShapeRec) : Bool :=
  r.fmt != 0 && decide (r.fmt.toNat < 0xD) && r.ctrl.extractLsb' 6 2 == 0 && r.ctrl.extractLsb' 12 52 == 0 &&
    r.tile.extractLsb' 48 16 == 0 && decide (0 < r.dim0) && decide (0 < r.dim1) && decide (0 < r.dim2) &&
    decide (0 < r.ext0) && decide (0 < r.ext1) && decide (0 < r.ext2)
/-- For a 4-bit format, EXT0 and the origin in dimension 0 are even (R171). -/
def ShapeRec.even (r : ShapeRec) : Bool := r.bits != 4 || (r.ext0 % 2 == 0 && r.tx * r.ext0 % 2 == 0)
/-- Whether some tile element lies outside the tensor; of a 4-bit format, a byte's even element (R172); of a decoded copy,
the tile coordinates (R177). -/
def ShapeRec.outside (r : ShapeRec) : Bool :=
  if r.dec then
    decide ((r.dim0 + r.ext0 - 1) / r.ext0 ≤ r.tx) || decide ((r.dim1 + r.ext1 - 1) / r.ext1 ≤ r.ty) ||
      decide ((r.dim2 + r.ext2 - 1) / r.ext2 ≤ r.tz)
  else
    let last := (r.tx + 1) * r.ext0 - (if r.bits = 4 then 2 else 1)
    decide (r.dim0 ≤ last) || decide (r.dim1 < (r.ty + 1) * r.ext1) || decide (r.dim2 < (r.tz + 1) * r.ext2)

/-- The rows of a tile: local offset, main address and bytes of each run of dimension 0 that is copied; in checked mode
elements outside the tensor are left out (R171, R172). -/
def ShapeRec.runs (r : ShapeRec) (checked : Bool) : List (Nat × W64 × Nat) :=
  let rowBytes := r.ext0 * r.bits / 8
  let x0 := r.tx * r.ext0
  let n0 := if checked then min rowBytes (((r.dim0 - x0) * r.bits + 7) / 8) else rowBytes
  (List.range r.ext2).flatMap fun e2 => (List.range r.ext1).filterMap fun e1 =>
    let i1 := r.ty * r.ext1 + e1
    let i2 := r.tz * r.ext2 + e2
    if (checked && (decide (r.dim1 ≤ i1) || decide (r.dim2 ≤ i2))) || n0 == 0 then none
    else some (rowBytes * (e1 + r.ext1 * e2),
      r.base + BitVec.ofNat 64 (x0 * r.bits / 8) + BitVec.ofNat 64 i1 * r.str1 + BitVec.ofNat 64 i2 * r.str2, n0)

/-! ## CPY (R173) -/

/-- Commands of a context that have not completed. -/
def CopyEngine.held (e : CopyEngine) (ctx : Nat) : Nat := (e.buf.filter fun c => c.ctx == ctx).length

/-- Whether a record's format and extents give its tile a size (R171). -/
def ShapeRec.sized (r : ShapeRec) : Bool :=
  r.fmt != 0 && decide (r.fmt.toNat < 0xD) && decide (0 < r.ext0) && decide (0 < r.ext1) && decide (0 < r.ext2)
/-- Whether they also give its tensor one (R170). -/
def ShapeRec.shaped (r : ShapeRec) : Bool := r.sized && decide (0 < r.dim0) && decide (0 < r.dim1) && decide (0 < r.dim2)
/-- The error of a tile's scratch address that is no multiple of 8. -/
def tileAlign (a : Nat) : List (Nat × W64) := if a % 8 = 0 then [] else [(Err.alignment, BitVec.ofNat 64 a)]
/-- The checks a record's fields decide (R170 to R173, R177): each is made as far as the fields it needs are legal. -/
def State.shapeErrs (s : State) (x : W64) (recAddr : Nat) (bytes : List Byte) (checked : Bool) : List (Nat × W64) :=
  let r := readShape bytes
  let sAddr := (x.setWidth 32).toNat
  let first := (x.extractLsb' 35 6).toNat
  s.operandErr (!(r.ok && shapeReserved bytes)) ++
    (if r.sized then
      (if r.even then [] else [(Err.alignment, BitVec.ofNat 64 sAddr)]) ++ s.core.rangeErrs sAddr r.size 8 ++
        s.operandErr (decide (64 < first + (r.size + 511) / 512) ||
          (r.dec && (x.getLsbD 41 || (SMap.find s.core.ce.tables r.dti).isNone)))
     else tileAlign sAddr) ++
    (if r.shaped && checked && !r.permit && r.outside then [(Err.shapeBounds, BitVec.ofNat 64 recAddr)] else [])

/-- CPY: the record is read in the source cycle, everything is checked, and the command is queued (R173). The record's 64 bytes are a
scratch access (R157, R346). -/
def cpyOp (t : TVal) (s : State) : State :=
  let x := s.ceX
  let y := s.ceY
  let recAddr := (y.setWidth 32).toNat
  let checked := (s.launch.map fun l => l.lr.ctrl.getLsbD 4).getD false
  let bytes := s.seenScratch.readBytes recAddr 64
  let loss := s.seenRows.readLoss recAddr 64
  let recErrs := s.core.rangeErrs recAddr 64 64
  let errs := recErrs ++ s.operandErr (x.extractLsb' 42 22 != 0 || y.extractLsb' 32 32 != 0) ++
    (if 16 ≤ s.core.ce.held s.frame.cur.ctx then [(Err.copyQueue, 0)] else []) ++
    (if recErrs.isEmpty then
      match loss with
      | some w => (Err.dataLoss, BitVec.ofNat 64 (s.core.rows.rowOfByte w)) :: tileAlign (x.setWidth 32).toNat
      | none => s.shapeErrs x recAddr bytes checked
     else tileAlign (x.setWidth 32).toNat)
  (s.orElse errs fun s =>
    let c : CopyCmd := { ctx := s.frame.cur.ctx, pc := s.frame.pc, sclk := s.arch.sclk, s := (x.setWidth 32).toNat,
                         b := (x.extractLsb' 32 3).toNat, first := (x.extractLsb' 35 6).toNat, dir := x.getLsbD 41,
                         t := t.c64.toNat, shape := readShape bytes, recAddr := recAddr, checked := checked, ready := s.frame.cyc1 + 3 }
    let e := { s.core.ce with buf := s.core.ce.buf ++ [c] }
    s.setCore { s.core with ce := e, rows := s.core.rows.fixBytes recAddr 64 }).chargeHere 3 (if recErrs.isEmpty then 8 else 0)

/-! ## Decoding (R252, R253) -/

/-- first(b) of the canonical code: lengths 1 to 12 (R252). -/
def codeFirst (lens : List Nat) : Nat → Nat
  | 0 => 0
  | b + 1 => if b = 0 then 0 else (codeFirst lens b + lens.count b) * 2
/-- The symbol of a code of length b. -/
def codeSymbol (lens : List Nat) (b code : Nat) : Option Nat :=
  if codeFirst lens b ≤ code then
    ((List.range 256).filter fun s => lens.getD s 0 == b)[code - codeFirst lens b]?
  else none

/-- One symbol from the bits read so far, and the bits left; none where they end within its code. -/
def decodeOne (lens : List Nat) : List Bool → Nat → Nat → Option (Nat × List Bool)
  | [], _, _ => none
  | b :: rest, len, code =>
    match codeSymbol lens (len + 1) (2 * code + b.toNat) with
    | some y => some (y, rest)
    | none => if 12 ≤ len + 1 then some (0, rest) else decodeOne lens rest (len + 1) (2 * code + b.toNat)
/-- At most n symbols, and the bits left. -/
def decodeMany (lens : List Nat) : Nat → List Bool → List Byte → List Byte × List Bool
  | 0, bits, acc => (acc.reverse, bits)
  | n + 1, bits, acc =>
    match decodeOne lens bits 0 0 with
    | none => (acc.reverse, bits)
    | some (y, rest) => decodeMany lens n rest (BitVec.ofNat 8 y :: acc)
/-- The bits of bytes in stream order: the highest of each byte first (R177, R253). -/
def streamBits (l : List Byte) : List Bool := l.flatMap fun b => (List.range 8).map fun i => b.getLsbD (7 - i)
/-! ## Transfers (R169, R173, R174, R263, R268)

A transfer that has begun holds its elements that have not performed. In each core cycle the copy engine reads and writes those
that a free choice takes: in the place of the reads of R158 first, then in the place of its deliveries. -/

/-- Bytes a copy delivers into a core's scratch: whole words clear their errors (R249). A word that fewer than its 8 bytes are
delivered to takes them, keeps an uncorrectable error and raises nothing: DESIGN CHOICE, unsafe (assumption 91). -/
def Core.deliverBytes (k : Core) (a : Nat) (bs : List Byte) : Core :=
  { k with scratch := k.scratch.writeBytes a bs, rows := k.rows.storeClear a (bs.map some) }
/-- The buffer with the n-th command changed or removed. -/
def setNth {α : Type} (l : List α) (n : Nat) (v : Option α) : List α :=
  l.take n ++ v.toList ++ l.drop (n + 1)

/-- The elements of a transfer (R171, R263): each tensor element that is copied, or each byte of a 4-bit format; of a decoded
tile, each byte. An outside decoded tile has none (R177). -/
def CopyCmd.elements (c : CopyCmd) : List CopyEl :=
  let r := c.shape
  let at_ := fun (o n : Nat) (va : W64) => ({ chunk := c.first + o / 512, loc := c.s + o, va := va, n := n } : CopyEl)
  if r.dec then
    if c.checked && r.outside then [] else (List.range r.size).map fun o => at_ o 1 0
  else
    let n := max 1 (r.bits / 8)
    (r.runs c.checked).flatMap fun run => (List.range (run.2.2 / n)).map fun i =>
      at_ (run.1 + n * i) n (run.2.1 + BitVec.ofNat 64 (n * i))
/-- A command begun: its chunks are to be set as their elements perform (R173, R174). -/
def CopyCmd.begin_ (c : CopyCmd) : CopyCmd :=
  { c with begun := true, chunks := (List.range ((c.shape.size + 511) / 512)).map (c.first + ·), els := c.elements }
/-- The chunks of a command all of whose elements have performed, with their bits not set yet. -/
def CopyCmd.complete (c : CopyCmd) : List Nat := c.chunks.filter fun b => !c.els.any fun e => e.chunk == b
/-- A command that an error ends: the chunks complete by then are still set (R169, R174). -/
def CopyCmd.fail (c : CopyCmd) : CopyCmd := { c with chunks := c.complete, els := [] }

/-- What a part of a transfer comes to: the state, the command, and the error it met. -/
abbrev Moved (α : Type) := State × α × Option (Nat × W64)

/-- An element's source read: of the scratch, or of main memory; or the error met (R169, R250). -/
def State.readEl (s : State) (core : Nat) (dir : Bool) (e : CopyEl) : Except (Nat × W64) (List Byte × State) :=
  let k := s.coreAt core
  if dir then
    match k.rows.readLoss e.loc e.n with
    | some w => .error (Err.dataLoss, BitVec.ofNat 64 (k.rows.rowOfByte w))
    | none => .ok (k.scratch.readBytes e.loc e.n, s.setCoreAt core { k with rows := k.rows.fixBytes e.loc e.n })
  else
    match s.agentRead (s.partOfCore core) (dieOf core) e.va e.n with
    | .ok r => .ok r
    | .error a => .error (Err.copyTranslation, a)
/-- An element's destination written: in main memory, or in the scratch. -/
def State.writeEl (s : State) (core : Nat) (c : CopyCmd) (e : CopyEl) (bs : List Byte) : Except (Nat × W64) State :=
  if c.dir then
    match s.agentWrite (s.partOfCore core) (dieOf core) e.va bs with
    | .ok s1 => .ok s1
    | .error a => .error (Err.copyTranslation, a)
  else
    .ok (s.setCoreAt core (((s.coreAt core).deliverBytes e.loc bs).wrote { addr := e.loc, len := e.n, code := 3, ctx := c.ctx }))

/-- The elements a free choice takes, of those not read yet, read. -/
def State.readEls (s : State) (core : Nat) (c : CopyCmd) (take : Nat → Bool) : Moved CopyCmd :=
  let r := c.els.zipIdx.foldl (fun (a : Moved (List CopyEl)) x =>
    if a.2.2.isSome || x.1.got.isSome || !take x.2 then (a.1, a.2.1 ++ [x.1], a.2.2)
    else
      match a.1.readEl core c.dir x.1 with
      | .ok (bs, s1) => (s1, a.2.1 ++ [{ x.1 with got := some bs }], none)
      | .error e => (a.1, a.2.1 ++ [x.1], some e)) (s, [], none)
  (r.1, { c with els := r.2.1 }, r.2.2)
/-- The elements a free choice takes, of those read, written; they have then performed. -/
def State.writeEls (s : State) (core : Nat) (c : CopyCmd) (take : Nat → Bool) : Moved CopyCmd :=
  let r := c.els.zipIdx.foldl (fun (a : Moved (List CopyEl)) x =>
    match x.1.got with
    | some bs =>
      if a.2.2.isSome || !take x.2 then (a.1, a.2.1 ++ [x.1], a.2.2)
      else
        match a.1.writeEl core c x.1 bs with
        | .ok s1 => (s1, a.2.1, none)
        | .error e => (a.1, a.2.1 ++ [x.1], some e)
    | none => (a.1, a.2.1 ++ [x.1], a.2.2)) (s, [], none)
  (r.1, { c with els := r.2.1 }, r.2.2)

/-- The decoder's next read: the index entry, then each aligned word of the stream; the symbols it completes are the next bytes
of the tile (R177, R253, R263). -/
def State.decodeRead (s : State) (core : Nat) (c : CopyCmd) : Moved CopyCmd :=
  let part := s.partOfCore core
  let die := dieOf core
  match c.dec.next with
  | none =>
    match s.agentRead part die c.shape.entryAddr 8 with
    | .error e => (s, c, some (Err.copyTranslation, e))
    | .ok (l, s1) =>
      let a := leNat l
      (s1, { c with dec := { c.dec with next := some (a / 8 * 8), skip := 8 * (a % 8) } }, none)
  | some a =>
    match s.agentRead part die (BitVec.ofNat 64 a) 8 with
    | .error e => (s, c, some (Err.copyTranslation, e))
    | .ok (l, s1) =>
      let n := (c.els.filter fun e => e.got.isNone).length
      let d := decodeMany (SMap.get [] (s.coreAt core).ce.tables c.shape.dti) n (c.dec.pend ++ (streamBits l).drop c.dec.skip) []
      let r := c.els.foldl (fun (a : List CopyEl × List Byte) e =>
        match e.got, a.2 with
        | none, b :: rest => (a.1 ++ [{ e with got := some [b] }], rest)
        | _, bs => (a.1 ++ [e], bs)) ([], d.1)
      (s1, { c with els := r.1, dec := { next := some (a + 8), skip := 0, pend := d.2 } }, none)
/-- At most n of the decoder's reads. -/
def State.decodeReads (s : State) (core : Nat) (c : CopyCmd) : Nat → Moved CopyCmd
  | 0 => (s, c, none)
  | n + 1 =>
    if c.els.all fun e => e.got.isSome then (s, c, none)
    else
      match s.decodeRead core c with
      | (s1, c1, none) => State.decodeReads s1 core c1 n
      | r => r

/-- One command's part of a cycle: the reads or the writes that a free choice takes. While the core's pool is held, nothing that
touches the scratch is done (R168, R325). -/
def State.moveCmd (s : State) (core : Nat) (late held : Bool) (c : CopyCmd) (take : Nat → Bool) (reads : Nat) : Moved CopyCmd :=
  if !c.begun || (held && c.dir != late) then (s, c, none)
  else if late then s.writeEls core c take
  else if c.shape.dec then s.decodeReads core c reads
  else s.readEls core c take
/-- Pieces of 64 bytes and of 32 symbols that a count passes (R346). -/
def passed (size a b : Nat) : Nat := (b + size - 1) / size - (a + size - 1) / size
/-- The events of a command's bytes moved: 64 plain bytes, or 32 decoded symbols (R316, R346). -/
def State.chargeMoved (s : State) (core : Nat) (c : CopyCmd) (b : Nat) : State :=
  if c.shape.dec then s.charge core 6 (passed 32 c.moved b) else s.charge core 5 (passed 64 c.moved b)
/-- The n-th command of the buffer in a cycle; an error stops the context that issued it (R169). -/
def State.moveNth (s : State) (core : Nat) (late held : Bool) (draw : Nat) (n : Nat) : State :=
  match (s.coreAt core).ce.buf[n]? with
  | none => s
  | some c =>
    let main := c.dir == late
    let waits := fun (i : Nat) => main && match c.els[i]? with
      | some e => s.givesWay (s.partOfCore core) (dieOf core) e.va
      | none => false
    let reads := if s.givesWay (s.partOfCore core) (dieOf core) ((c.dec.next.map (BitVec.ofNat 64)).getD c.shape.entryAddr) then 0
      else Config.copyLatency draw % 65
    let m := s.moveCmd core late held c (fun i => Config.copyTake (2 ^ 40 * draw + 2 ^ 20 * n + i) && !waits i) reads
    let gone := ((c.els.map (·.n)).sum) - ((m.2.1.els.map (·.n)).sum)
    let s1 := m.1.chargeMoved core c (c.moved + gone)
    let c1 := { m.2.1 with moved := c.moved + gone }
    let put := fun (v : CopyCmd) => s1.setCoreAt core
      { s1.coreAt core with ce := { (s1.coreAt core).ce with buf := setNth (s1.coreAt core).ce.buf n (some v) } }
    match m.2.2 with
    | none => if c1 = c then s1 else put c1
    | some e => (put c1.fail).stopStanding core c.ctx e.1 e.2 c.pc
/-- The block transfers of a core in a cycle. -/
def State.moveTiles (s : State) (core : Nat) (late : Bool) : State :=
  let k := s.coreAt core
  if k.ce.buf.any (·.begun) then
    let d := s.draw
    (List.range k.ce.buf.length).foldl (fun (s : State) n => s.moveNth core late (decide (k.cyc < k.hold)) d.1 n) d.2
  else s

/-- The dies a boundary joins (R355). -/
def boundaryDies (b : BitVec 2) : Nat × Nat :=
  match b.toNat with
  | 0 => (0, 1) | 1 => (1, 2) | _ => (0, 2)
/-- Whether the way from a die to another crosses a boundary. -/
def crosses (b : BitVec 2) (d e : Nat) : Bool := (d, e) == boundaryDies b || (e, d) == boundaryDies b
/-- Whether the way from a core to the memory of a main address crosses a boundary. -/
def State.farAt (s : State) (core : Nat) (b : BitVec 2) (va : W64) : Bool :=
  match s.xlat (s.partOfCore core) (dieOf core) va false with
  | .ok pa _ => crosses b (dieOf core) (Config.memDie pa)
  | _ => false
/-- A command's elements that cross a boundary take bytes that are not specified; of a decoded copy all, where its index entry or its
stream crosses it (R355). -/
def State.loseEls (s : State) (core : Nat) (b : BitVec 2) (c : CopyCmd) : CopyCmd × State :=
  let all := c.shape.dec && (s.farAt core b c.shape.entryAddr || (c.dec.next.map fun a => s.farAt core b (BitVec.ofNat 64 a)).getD false)
  let far := fun (e : CopyEl) => if c.shape.dec then all else s.farAt core b e.va
  ({ c with els := c.els.zipIdx.map fun (e : CopyEl × Nat) =>
      if far e.1 then { e.1 with got := some (openBytes (s.ctr + e.2) e.1.n) } else e.1 },
    { s with ctr := s.ctr + c.els.length })

/-- The first command in buffer order that may begin (R173, R266). -/
def Core.nextCpy (k : Core) (pcc : Nat) : Option Nat :=
  k.ce.buf.findIdx? fun c => !c.begun && decide (c.t ≤ pcc) && decide (c.ready ≤ k.cyc)

/-- CPY_BEGIN: the first due command in buffer order begins; while others are in progress a free choice may leave it
waiting (R173). -/
def execCpyBegin (s : State) : Host.Outcome State Fault Refusal :=
  let k := s.core
  let core := s.frame.cur.core
  match k.nextCpy s.pcc with
  | none => .next s
  | some n =>
    match k.ce.buf[n]? with
    | none => .next s
    | some c =>
      let go := fun (s : State) =>
        let b := match c.cut with
          | some w => (s.loseEls core w c.begin_)
          | none => (c.begin_, s)
        b.2.setCore { k with ce := { k.ce with buf := setNth k.ce.buf n (some b.1) } }
      if k.ce.buf.any (·.begun) then
        if Config.copyLatency s.ctr % 2 = 0 then .next (go s.draw.2) else .next s.draw.2
      else .next (go s)

/-- Whether some begun command has a chunk to set, or none left (R174). -/
def Core.chunksDue (k : Core) : Bool := k.ce.buf.any fun c => c.begun && (c.chunks.isEmpty || !c.complete.isEmpty)
/-- The chunks of a command that are complete set by OR in cbB of the issuing context. -/
def Core.setChunks (k : Core) (c : CopyCmd) : Core :=
  let x := k.ctx c.ctx
  let bits := c.complete.foldl (fun (v : W64) b => v ||| BitVec.ofNat 64 (2 ^ b)) 0
  if c.begun && bits != 0 then k.setCtx c.ctx { x with cb := x.cb.put c.b (SMap.get 0 x.cb c.b ||| bits) } else k

/-- CHUNK_BIT_SET: at the end of the cycle in which a chunk's last byte has performed its bit is set; a command without chunks
left has completed (R174). -/
def execChunkBitSet (s : State) : Host.Outcome State Fault Refusal :=
  let k := s.core
  let rest := k.ce.buf.filterMap fun c =>
    if c.begun then
      let l := c.chunks.filter fun b => !c.complete.contains b
      if l.isEmpty then none else some { c with chunks := l }
    else some c
  let k1 := k.ce.buf.foldl Core.setChunks k
  .next (if k.chunksDue then s.setCore { k1 with ce := { k1.ce with buf := rest } } else s)

/-! ## CBCLR, SHAPE, DCT (R175 to R177) -/

def cbclrOp (t : TVal) (s : State) : State :=
  let b := (t.c64.extractLsb' 0 3).toNat
  let x := s.ctx
  s.setCtx { x with cb := x.cb.put b (SMap.get 0 x.cb b &&& ~~~s.ceX) }

def shapeOp (t : TVal) (s : State) : State :=
  s.orElse (s.core.rangeErrs t.addr 64 64) fun s =>
    s.queueAccess (s.frame.cyc1 + 2) (.shape t.addr s.ceX)

/-- The 256 code lengths of 128 bytes: symbol 2s in the low nibble of byte s (R177). -/
def codeLengths (l : List Byte) : List Nat := l.flatMap fun b => [b.toNat % 16, b.toNat / 16]
/-- Whether lengths form a complete code (R252). -/
def completeCode (lens : List Nat) : Bool :=
  lens.all (fun n => decide (n ≤ 12)) && lens.foldl (fun a n => if n = 0 then a else a + 2 ^ (12 - n)) 0 == 4096

/-- DCT: the table's 128 bytes are read in the source cycle, a scratch access, and checked (R157, R177, R252, R346). -/
def dctOp (t : TVal) (s : State) : State :=
  let i := (s.ceX.extractLsb' 0 4).toNat
  let lens := codeLengths (s.seenScratch.readBytes t.addr 128)
  let range := s.core.rangeErrs t.addr 128 1
  let busy := s.core.ce.buf.any fun c => c.shape.dec && c.shape.dti == i
  let errs := range ++ (if range.isEmpty then
      match s.seenRows.readLoss t.addr 128 with
      | some w => [(Err.dataLoss, BitVec.ofNat 64 (s.core.rows.rowOfByte w))]
      | none => []
     else []) ++
    s.operandErr (s.ceX.extractLsb' 4 60 != 0 || busy || (range.isEmpty && !completeCode lens))
  (s.orElse errs fun s =>
    let e := { s.core.ce with tables := s.core.ce.tables.put i lens }
    s.setCore { s.core with ce := e, rows := s.core.rows.fixBytes t.addr 128 }).chargeHere 3 (if range.isEmpty then 16 else 0)

/-! ## Streams (R178, R179) -/

def CopyEngine.chan (e : CopyEngine) (j : Bool) : List Stream := if j then e.ch1 else e.ch0
def CopyEngine.setChan (e : CopyEngine) (j : Bool) (l : List Stream) : CopyEngine :=
  if j then { e with ch1 := l } else { e with ch0 := l }
def CopyEngine.wp (e : CopyEngine) (j : Bool) : W64 := if j then e.wp1 else e.wp0
def CopyEngine.setWp (e : CopyEngine) (j : Bool) (v : W64) : CopyEngine :=
  if j then { e with wp1 := v } else { e with wp0 := v }

def cpysOp (t : TVal) (s : State) : State :=
  let x := s.ceX
  let y := s.ceY
  let a := (x.setWidth 32).toNat
  let n := (y.setWidth 32).toNat
  let j := x.getLsbD 32
  let errs := s.operandErr (x.extractLsb' 33 31 != 0 || y.extractLsb' 32 32 != 0 || n % 8 != 0 || decide (n < 8) ||
      decide (2 ^ 24 < n)) ++ s.core.rangeErrs a n 8 ++
    (if t.c64.toNat % 8 = 0 then [] else [(Err.alignment, t.c64)]) ++
    (if 4 ≤ (s.core.ce.chan j).length then [(Err.streamQueue, 0)] else [])
  s.orElse errs fun s =>
    let st : Stream := { ctx := s.frame.cur.ctx, pc := s.frame.pc, s := a, len := n, va := t.c64,
                         ready := s.frame.cyc1 + 3 }
    s.setCore { s.core with ce := s.core.ce.setChan j (s.core.ce.chan j ++ [st]) }

/-- Words of a running stream read, those a free choice takes (R178, R263); or the address that faulted. -/
def State.readWords (s : State) (core : Nat) (st : Stream) (take : Nat → Bool) : State × Stream × Option W64 :=
  st.window.foldl (fun (a : State × Stream × Option W64) n =>
    if a.2.2.isSome || !take n then a
    else
      match a.1.agentRead (a.1.partOfCore core) (dieOf core) (st.va + BitVec.ofNat 64 (8 * n)) 8 with
      | .ok (l, s1) => (s1, { a.2.1 with words := a.2.1.words.put n (BitVec.ofNat 64 (leNat l)) }, none)
      | .error e => (a.1, a.2.1, some e)) (s, st, none)
/-- The reads of a channel's running stream in a cycle; a translation fault stops its context and ends the stream (R169). -/
def State.readStream (s : State) (core : Nat) (j : Bool) : State :=
  let k := s.coreAt core
  match k.ce.chan j with
  | [] => s
  | st :: rest =>
    if k.cyc < st.ready then s
    else
      let d := s.draw
      let r := d.2.readWords core st (fun n =>
        Config.copyTake (2 ^ 40 * d.1 + 2 ^ 39 + n % 16) && !s.givesWay (s.partOfCore core) (dieOf core) (st.va + BitVec.ofNat 64 (8 * n)))
      let put := fun (l : List Stream) => r.1.setCoreAt core { r.1.coreAt core with ce := (r.1.coreAt core).ce.setChan j l }
      match r.2.2 with
      | none => put (r.2.1 :: rest)
      | some e => (put rest).stopStanding core st.ctx Err.copyTranslation e st.pc

/-- STREAM_GRANULE: the running stream of the cursor's channel, whose next granule of up to 64 bytes has been read, delivers it,
and wpj rises by its size (R178). A free choice may deliver none. -/
def execStreamGranule (s : State) : Host.Outcome State Fault Refusal :=
  let core := s.frame.cur.core
  let j := s.frame.cur.eng
  let k := s.core
  match k.ce.chan j with
  | [] => .next s
  | st :: rest =>
    let n := min 64 (st.len - st.pos)
    let idx := (List.range (n / 8)).map (st.pos / 8 + ·)
    if k.cyc < k.hold ∨ k.cyc < st.ready ∨ ¬(idx.all fun i => (SMap.find st.words i).isSome) then .next s
    else if Config.streamLatency s.ctr % 2 ≠ 0 then .next s.draw.2
    else
      let bs := idx.flatMap fun i => leBytes 8 (SMap.get 0 st.words i).toNat
      let st1 := { st with pos := st.pos + n, words := st.words.filter fun w => !idx.contains w.1 }
      let e1 := k.ce.setChan j (if st.len ≤ st.pos + n then rest else st1 :: rest)
      let k1 := { k.deliverBytes (st.s + st.pos) bs with ce := e1.setWp j (e1.wp j + BitVec.ofNat 64 n) }
      .next ((s.draw.2.setCore (k1.wrote { addr := st.s + st.pos, len := n, code := 3, ctx := st.ctx })).charge core 5 1)

def wpclrOp (t : TVal) (s : State) : State :=
  let j := t.c64.getLsbD 0
  s.orElse (s.operandErr (!(s.core.ce.chan j).isEmpty)) fun s => s.setCore { s.core with ce := s.core.ce.setWp j 0 }

/-! ## XFER and CATOM (R180, R181) -/

def xferOp (t : TVal) (s : State) : State :=
  let x := s.ceX
  let y := s.ceY
  let src := (x.setWidth 32).toNat
  let dst := (y.setWidth 32).toNat
  let len := 8 * (x.extractLsb' 32 16).toNat
  let dc := (y.extractLsb' 32 10).toNat
  let n := (s.launch.map fun l => l.cores.length).getD 0
  let errs := s.operandErr (x.extractLsb' 48 16 != 0 || y.extractLsb' 42 22 != 0 || t.c64.extractLsb' 32 32 != 0 ||
      len == 0 || decide (n ≤ dc)) ++ s.core.rangeErrs src len 8 ++ s.core.rangeErrs dst len 8 ++
    (if 64 ≤ s.ctx.xfers.length then [(Err.copyQueue, 0)] else [])
  s.orElse errs fun s =>
    let e : XferEntry := { ctx := s.frame.cur.ctx, src := src, len := len, dst := dst, dcore := dc,
                           ofs := (t.c64.setWidth 32).toNat, pc := s.frame.pc, ready := s.frame.cyc1 + 3 }
    s.setCtx { s.ctx with xfers := s.ctx.xfers ++ [e] }

def catomOp (t : TVal) (s : State) : State :=
  s.orElse (if t.c64.toNat % 8 = 0 then [] else [(Err.alignment, t.c64)]) fun s =>
    let d := s.draw
    let c : CatomCmd := { ctx := s.frame.cur.ctx, pc := s.frame.pc, sclk := s.arch.sclk, add := s.ceX, va := t.c64,
                          due := s.pcc + 1 + Config.catomLatency d.1, ready := s.frame.cyc1 + 3 }
    d.2.setCore { d.2.core with ce := { d.2.core.ce with catoms := d.2.core.ce.catoms ++ [c] } }

/-- CATOM_ANSWER: the first CATOM of the core whose answer is due performs its fetch-and-add; CE.q takes the old value in a
context that has not stopped (R59, R181). That the access performs in the cycle of its answer is a DESIGN CHOICE, unsafe
(assumption 88). -/
def execCatomAnswer (s : State) : Host.Outcome State Fault Refusal :=
  let core := s.frame.cur.core
  let k := s.core
  match k.ce.catoms.findIdx? fun c => decide (c.due ≤ s.pcc) && decide (c.ready ≤ k.cyc) && !s.givesWay (s.partOfCore core) (dieOf core) c.va with
  | none => .next s
  | some n =>
    match k.ce.catoms[n]? with
    | none => .next s
    | some c =>
      let s1 := s.setCore { k with ce := { k.ce with catoms := setNth k.ce.catoms n none } }
      let part := s.partOfCore core
      match s1.agentRead part (dieOf core) c.va 8 with
      | .error e => .next (s1.stopStanding core c.ctx Err.copyTranslation e c.pc)
      | .ok (l, s2) =>
        let old := BitVec.ofNat 64 (leNat l)
        match s2.agentWrite part (dieOf core) c.va (leBytes 8 (old + c.add).toNat) with
        | .error e => .next (s1.stopStanding core c.ctx Err.copyTranslation e c.pc)
        | .ok s3 =>
          let x := s3.core.ctx c.ctx
          if x.status = .stopped then .next s3
          else
            .next (s3.setCore (s3.core.setCtx c.ctx
              { x with cur := { x.cur with ports := x.cur.ports.put 0x9A (plain old.toNat) },
                       landed := x.landed ++ [(6, 0x9A, c.sclk, some old)] }))

/-! ## The system triggers (R182) -/

/-- SIGNAL: performs as a store. -/
def signalOp (t : TVal) (s : State) : State := (s.queueAccess (s.frame.cyc1 + 2) (.signal t.c32)).noRoll
/-- GMARK: a record of TYPE 0x7. -/
def gmarkOp (t : TVal) (s : State) : State := (s.trace 7 t.c32.toNat).noRoll

/-- SIGNAL: posts t[31:0] to the launch's notification queue (R182). -/
def execSignal (w : Slot) (s : State) : Host.Outcome State Fault Refusal := .next (s.trigger w signalOp)
/-- GMARK: a software mark in the ring (R182). -/
def execGmark (w : Slot) (s : State) : Host.Outcome State Fault Refusal := .next (s.trigger w gmarkOp)

/-! ## The meanings of the CE triggers -/

/-- CPY: queues a block transfer of one tile (R173). -/
def execCpy (w : Slot) (s : State) : Host.Outcome State Fault Refusal := ceRun cpyOp 0x110 w s
def execCpyExt (w : Slot) (s : State) : Host.Outcome State Fault Refusal := ceRunExt cpyOp 0x110 w s

/-- CPYS: queues a stream (R178). -/
def execCpys (w : Slot) (s : State) : Host.Outcome State Fault Refusal := ceRun cpysOp 0x111 w s
def execCpysExt (w : Slot) (s : State) : Host.Outcome State Fault Refusal := ceRunExt cpysOp 0x111 w s

/-- XFER: queues a transfer for the next communication step (R180). -/
def execXfer (w : Slot) (s : State) : Host.Outcome State Fault Refusal := ceRun xferOp 0x112 w s
def execXferExt (w : Slot) (s : State) : Host.Outcome State Fault Refusal := ceRunExt xferOp 0x112 w s

/-- CATOM: a 64-bit fetch-and-add in main memory (R181). -/
def execCatom (w : Slot) (s : State) : Host.Outcome State Fault Refusal := ceRun catomOp 0x113 w s
def execCatomExt (w : Slot) (s : State) : Host.Outcome State Fault Refusal := ceRunExt catomOp 0x113 w s

/-- SHAPE: writes a record's tile coordinates (R176). -/
def execShape (w : Slot) (s : State) : Host.Outcome State Fault Refusal := ceRun shapeOp 0x114 w s
def execShapeExt (w : Slot) (s : State) : Host.Outcome State Fault Refusal := ceRunExt shapeOp 0x114 w s

/-- DCT: loads a decode table (R177). -/
def execDct (w : Slot) (s : State) : Host.Outcome State Fault Refusal := ceRun dctOp 0x115 w s
def execDctExt (w : Slot) (s : State) : Host.Outcome State Fault Refusal := ceRunExt dctOp 0x115 w s

/-- CBCLR: clears bits of a chunk bitmap (R175). -/
def execCbclr (w : Slot) (s : State) : Host.Outcome State Fault Refusal := ceRun cbclrOp 0x116 w s
def execCbclrExt (w : Slot) (s : State) : Host.Outcome State Fault Refusal := ceRunExt cbclrOp 0x116 w s

/-- WPCLR: resets a write pointer (R179). -/
def execWpclr (w : Slot) (s : State) : Host.Outcome State Fault Refusal := ceRun wpclrOp 0x117 w s
def execWpclrExt (w : Slot) (s : State) : Host.Outcome State Fault Refusal := ceRunExt wpclrOp 0x117 w s

end Sys2Proof.Machine
end

