-- ==== Sys2Proof/Machine/Engine.lean ====
section
/-!
DEFINITION. The triggers of slot 6: holding and configuring a matrix engine, Larder slots, tiles, calls of routines with
their checks, the handler's patches, lent banks (R188 to R210); the start of a routine (R201, R203) and the landings of
MZERO and of held MPSWs (R199, R209).
-/
namespace Sys2Proof.Machine

/-! ## Inputs and the holder rule (R191, R192) -/

def needDrain : Need := { f := true, wt := true }

/-- ME's x input. -/
def State.meX (s : State) (e : Bool) : W64 := (s.opnd (if e then 0x102 else 0x100)).val.setWidth 64
/-- The result port of an engine (R76). -/
def mePort (e : Bool) : Nat := if e then 0x99 else 0x98

/-- A trigger of ME in port form, where it may stand; it forbids a rollback of its phase (R60). -/
def meRun (n : Need) (op : TVal → State → State) (w : Slot) (s : State) : Host.Outcome State Fault Refusal :=
  .next (if s.needOk n then s.trigger w fun t s => (op t s).noRoll else s.raiseSlot Err.illegalBundle)
/-- A trigger of MEe in extended form. -/
def meRunExt (n : Need) (op : TVal → State → State) (e : Bool) (w : Slot) (s : State) :
    Host.Outcome State Fault Refusal :=
  .next (if s.needOk n then
      s.triggerExt w (if e then 0x102 else 0x100) (if e then 0x103 else 0x101) fun t s => (op t s).noRoll
    else s.raiseSlot Err.illegalBundle)

/-- The engine e of the cursor's core. -/
def State.eng (s : State) (e : Bool) : Engine := s.core.eng e
def State.setEng (s : State) (e : Bool) (g : Engine) : State := s.setCore (s.core.setEng e g)
/-- The cursor's context as a holder. -/
def State.me (s : State) : BitVec 3 := BitVec.ofNat 3 s.frame.cur.ctx
/-- An error whose detail is the engine (R320). -/
def engErr (code : Nat) (e : Bool) : Nat × W64 := (code, BitVec.ofNat 64 e.toNat)
/-- The holder rule: the holder, or, where the rule allows it, nobody (R192). -/
def State.holderErrs (s : State) (e strict : Bool) : List (Nat × W64) :=
  let h := (s.eng e).holder
  if h = s.me then [] else if h = 7 then (if strict then [engErr Err.engineConfig e] else []) else [engErr Err.engineHolder e]

/-! ## Configuration (R188 to R190, R193) -/

def cfgA (c : W64) : Tag := c.setWidth 4
def cfgB (c : W64) : Tag := c.extractLsb' 4 4
def cfgDa (c : W64) : Nat := (c.extractLsb' 8 3).toNat
def cfgDb (c : W64) : Nat := (c.extractLsb' 11 3).toNat
def cfgAsc (c : W64) : Bool := c.getLsbD 14
def cfgBsc (c : W64) : Bool := c.getLsbD 15

/-- Natural digits of a format (R189). -/
def digits (t : Tag) : Nat :=
  match t.toNat with
  | 6 => 1 | 4 => 2 | 5 => 2 | 11 => 2 | 12 => 2 | 10 => 4 | 2 => 4 | 3 => 6 | _ => 0
/-- Formats that may be block-scaled (R189). -/
def mayScale (t : Tag) : Bool := [4, 5, 6, 11, 12].contains t.toNat
def isFp8 (t : Tag) : Bool := t.toNat == 4 || t.toNat == 5
/-- A pair of R190 in the table's order. -/
def pairRow (a b : Tag) : Bool :=
  (a.toNat == 6 && (b.toNat == 6 || isFp8 b)) || (isFp8 a && isFp8 b) ||
    ((a.toNat == 11 || a.toNat == 12) && isFp8 b) || (a.toNat == 11 && b.toNat == 11) ||
    (a.toNat == 10 && (b.toNat == 11 || b.toNat == 10)) || (a.toNat == 2 && b.toNat == 2) || (a.toNat == 3 && b.toNat == 3)
/-- A supported pair, in either order (R190). -/
def pairOk (a b : Tag) : Bool := pairRow a b || pairRow b a
/-- Multiply-accumulates of an engine per core cycle (R188). -/
def macRate (c : W64) : Nat := 128 * (128 / (cfgDa c * cfgDb c))
def isIntFmt (t : Tag) : Bool := t.toNat == 10 || t.toNat == 11
/-- The accumulate type: INT32 for unscaled integer pairs, else FP32 (R190). -/
def accTag (c : W64) : Tag :=
  if isIntFmt (cfgA c) && isIntFmt (cfgB c) && !cfgAsc c && !cfgBsc c then 8 else 1
/-- A legal configuration word (R193). -/
def cfgOk (c : W64) : Bool :=
  c.extractLsb' 16 48 == 0 && pairOk (cfgA c) (cfgB c) && cfgDa c == digits (cfgA c) && cfgDb c == digits (cfgB c) &&
    (!cfgAsc c || mayScale (cfgA c)) && (!cfgBsc c || mayScale (cfgB c))

/-- MCFG: its checks in order, then Holder and configuration (R193). -/
def mcfgOp (e : Bool) (t : TVal) (s : State) : State :=
  let g := s.eng e
  let c := t.c64
  if g.holder ≠ 7 ∧ g.holder ≠ s.me then s.orElse [engErr Err.engineHolder e] id
  else if g.holder = s.me ∨ ¬cfgOk c then s.orElse [engErr Err.engineConfig e] id
  else s.setEng e { g with holder := s.me, cfg := some c }

/-- MDRAIN: its effects take place at the flip (R194). -/
def mdrainOp (e : Bool) (_ : TVal) (s : State) : State :=
  s.orElse (s.holderErrs e false) fun s => { s with frame := { s.frame with mdrain := s.frame.mdrain ++ [e] } }

/-- MDRAIN's effects at its flip, where the context holds the engine (R194). -/
def Engine.drain (g : Engine) (c : Nat) : Engine :=
  if g.holder = BitVec.ofNat 3 c then
    { g with sqd := g.sqd + BitVec.ofNat 32 g.saffron.length, saffron := [], mp := [], cfg := none, holder := 7 }
  else g

/-! ## The Larder (R195 to R197) -/

/-- The owner record of a claim (R32). -/
def ownerByte (c : Nat) (e : Bool) : Byte := BitVec.ofNat 8 (128 + 16 * (c % 8) + 8 * e.toNat)
/-- Whether a slot is claimed by the cursor's context for an engine. -/
def State.owns (s : State) (e : Bool) (slot : Nat) : Bool :=
  SMap.get 0 s.core.rows.owner slot == ownerByte s.frame.cur.ctx e
/-- Whether an engine is Busy with a routine that reads a slot. -/
def Engine.readsSlot (g : Engine) (slot : Nat) : Bool :=
  g.busy && (match g.run with | some r => r.reads.contains slot | none => false)

/-- The physical slots of two logical slots exchanged, with the errors of their words (R196). -/
def Rows.swapSlots (x : Rows) (l m : Nat) : Rows :=
  let a := x.physSlot l
  let b := x.physSlot m
  let key := fun (n : Nat) => if n / 2048 = 512 + a then 2048 * (512 + b) + n % 2048
    else if n / 2048 = 512 + b then 2048 * (512 + a) + n % 2048 else n
  { x with lmap := (x.lmap.put l (BitVec.ofNat 8 b)).put m (BitVec.ofNat 8 a),
           errs := x.errs.foldl (fun e p => e.put (key p.1) p.2) [] }
/-- The slot a CLAIM of a slot deeper than FLOOR exchanges with: the lowest-numbered physical slot of depth at most FLOOR
whose logical slot is unclaimed (R196). -/
def Rows.claimPartner (x : Rows) : Option Nat :=
  ((List.range 32).find? fun p => decide (x.slotDepth p ≤ x.floor) && !x.claimed (x.logSlot p)).map x.logSlot

/-- CLAIM (R196). An exchange holds the core's issue, and nothing else of it, for 256 core cycles. -/
def claimOp (e : Bool) (t : TVal) (s : State) : State :=
  let l := (t.c64.extractLsb' 0 5).toNat
  let r := s.core.rows
  let own := fun (k : Core) (x : Rows) => { k with rows := { x with owner := x.owner.put l (ownerByte s.frame.cur.ctx e) } }
  let deep := decide (r.floor < r.slotDepth (r.physSlot l))
  let errs := s.holderErrs e true ++ s.operandErr (t.c64.extractLsb' 5 59 != 0) ++
    (if r.claimed l || (deep && r.claimPartner.isNone) then [engErr Err.larder e] else [])
  s.orElse errs fun s =>
    match (if deep then r.claimPartner else none) with
    | some m => s.setCore { own s.core (r.swapSlots l m) with stall := max s.core.stall (s.frame.cyc1 + 257) }
    | none => s.setCore (own s.core r)

/-- RELEASE (R196). -/
def releaseOp (e : Bool) (t : TVal) (s : State) : State :=
  let l := (t.c64.extractLsb' 0 5).toNat
  let errs := s.holderErrs e true ++ s.operandErr (t.c64.extractLsb' 5 59 != 0) ++
    (if !s.owns e l || (s.eng e).readsSlot l then [engErr Err.larder e] else [])
  s.orElse errs fun s =>
    let r := s.core.rows
    s.setCore { s.core with rows := { r with owner := r.owner.put l (SMap.get 0 r.owner l &&& 0x7F) } }

/-- MPUT: one Larder row written at the store cycle (R197). On an engine that nobody holds the tag is checked against configuration
word 0, so that a tag-mismatch may be raised beside the engine's error: DESIGN CHOICE, unsafe (assumption 87). -/
def mputOp (e : Bool) (t : TVal) (s : State) : State :=
  let x := s.meX e
  let l := (x.extractLsb' 0 5).toNat
  let c := (s.eng e).cfg.getD 0
  let errs := s.holderErrs e true ++ s.operandErr (x.extractLsb' 11 53 != 0) ++
    (if !s.owns e l || (s.eng e).readsSlot l then [engErr Err.larder e] else []) ++
    (if t.tag = cfgA c ∨ t.tag = cfgB c then [] else [(Err.tagMismatch, BitVec.ofNat 64 s.frame.cur.slot)])
  s.orElse errs fun s =>
    s.queueAccess (s.frame.cyc1 + 2) (.mput l (x.extractLsb' 5 6).toNat (leBytes 256 t.val.toNat))

/-- The data-loss detail of a Larder row (R320). -/
def Rows.lossOfRow (x : Rows) (slot row : Nat) : W64 := BitVec.ofNat 64 (0x10000 + 64 * x.physSlot slot + row)

/-- MLGET: one Larder row read at issue, delivered 6 sc after (R197). -/
def mlgetOp (e : Bool) (t : TVal) (s : State) : State :=
  let l := (t.c64.extractLsb' 0 5).toNat
  let row := (t.c64.extractLsb' 5 6).toNat
  let r := s.core.rows
  let errs := s.holderErrs e true ++ s.operandErr (t.c64.extractLsb' 11 53 != 0) ++
    (if s.owns e l then [] else [engErr Err.larder e]) ++
    (if (List.range 32).any fun w => s.seenRows.badSlot l row w then [(Err.dataLoss, r.lossOfRow l row)] else [])
  s.orElse errs fun s =>
    let s1 := s.setCore { s.core with rows := r.fixSlotRow l row }
    (s1.pushResult (mePort e) 6 (plain (s.seenLarder.readLe (16384 * l + 256 * row) 256)) 0).chargeHere 4 1

/-! ## Accumulator tiles (R198 to R200) -/

/-- MZERO: its zeroing write lands in the core cycle after the last sub-bundle (R199), removed cycles apart: DESIGN CHOICE, unsafe
(assumption 40). -/
def mzeroOp (e : Bool) (t : TVal) (s : State) : State :=
  let tile := (t.c64.extractLsb' 0 4).toNat
  let errs := s.holderErrs e false ++ s.operandErr (t.c64.extractLsb' 5 59 != 0 || decide (s.tiles ≤ tile)) ++
    (if (s.eng e).busy then [engErr Err.engineBusy e] else [])
  s.orElse errs fun s =>
    s.setCtx { s.ctx with mzWait := s.ctx.mzWait ++
      [{ tile := tile, eng := e, int := t.c64.getLsbD 4, issued := s.arch.sclk, due := s.frame.cyc1 + 1 }] }

/-- The tile an MZERO leaves: all zero, tagged FP32 or INT32 (R199). -/
def zeroTile (int : Bool) : TileVal := { val := 0, tag := if int then 8 else 1 }

/-- The zeroing writes of an engine's MZEROs of a context that are due land (R199). -/
def State.landZeros (s : State) (core c : Nat) (e : Bool) : State :=
  let k := s.coreAt core
  let x := k.ctx c
  let now := fun (z : ZeroWait) => z.eng == e && decide (z.due ≤ k.cyc)
  let l := x.mzWait.filter now
  let tiles := match s.launchAt core with
    | some l => accTiles k.rows.ppw l.nctx
    | none => 0
  let regs := l.foldl (fun (r : RegFile) z => r.landAcc z.tile (zeroTile z.int)) x.cur.regs
  let done := l.map fun z => (if e then 5 else 4, 0xC0 + z.tile, z.issued, (none : Option W64))
  if l.isEmpty then s
  else s.setCoreAt core ((l.foldl (fun (k : Core) z => k.clearTile c tiles z.tile) k).setCtx c
    { x with cur := { x.cur with regs := regs }, landed := x.landed ++ done, mzWait := x.mzWait.filter fun z => !now z })
/-- MZERO_LAND: the zeroing writes of the cursor's engine and context that are due, at the end of the cycle, each engine's in
its rank (R43, R199). -/
def execMzeroLand (s : State) : Host.Outcome State Fault Refusal :=
  .next (s.landZeros s.frame.cur.core s.frame.cur.ctx s.frame.cur.eng)

/-- The drain formats an accumulator type allows (R200). R200 has an INT32 tile drained with TSE = 0 and names no error of TSE = 1: the operand
error is a DESIGN CHOICE, unsafe (assumption 92). -/
def drainOk (acc fmt : Tag) (tse : Bool) : Bool :=
  if acc = 1 then [1, 2, 3, 4, 5].contains fmt.toNat else if acc = 8 then fmt.toNat == 8 && !tse else true
/-- The errors of MGET's formats (R98, R200). A DFMT of 0xD to 0xF raises tag-mismatch alone, though no accumulator type allows it either:
DESIGN CHOICE, unsafe (assumption 92). -/
def mgetFmtErrs (slot : Nat) (acc fmt : Tag) (tse : Bool) : List (Nat × W64) :=
  if 0xD ≤ fmt.toNat ∨ (acc ≠ 1 ∧ acc ≠ 8) then [(Err.tagMismatch, BitVec.ofNat 64 slot)]
  else if drainOk acc fmt tse then [] else [(Err.operand, BitVec.ofNat 64 slot)]

/-- Row i of a tile drained with a tensor scale: the packed row and its flags (R110, R200). -/
def drainRow (acc fmt : Tag) (row : W2048) (ts : Fv) : TVal × Flags :=
  if acc = 8 then ({ val := row, tag := fmt }, 0)
  else
    let w := tagWidth fmt
    let q := (List.range 64).map fun j => drainEl fmt (.flt (fp32.value (elemAt row.toNat 32 j))) ts
    ({ val := BitVec.ofNat 2048 (q.reverse.foldl (fun n x => n * 2 ^ w + x.1) 0), tag := fmt },
      q.foldl (fun f x => f ||| x.2) 0)

/-- The physical row that holds row i of the visible face of a context's tile (R28). -/
def Core.faceRow (k : Core) (ctx tiles t i : Nat) : Nat :=
  tileRow0 ctx tiles t + (if ((k.ctx ctx).cur.regs.getAcc t).sw then 64 else 0) + i

/-- MGET: a row of the visible face read at issue, delivered 6 sc after; its flags at delivery (R200). A row it loses is reported
(R61, R250). -/
def mgetOp (e : Bool) (t : TVal) (s : State) : State :=
  let c := t.c64
  let tile := (c.extractLsb' 0 4).toNat
  let row := (c.extractLsb' 4 6).toNat
  let fmt : Tag := c.extractLsb' 10 4
  let tse := c.getLsbD 14
  let f := (s.arch.regs.getAcc tile).vis
  let phys := s.core.faceRow s.frame.cur.ctx s.tiles tile row
  let bad := s.seenRows.badRow phys
  let s := if bad then { s with frame := { s.frame with lost := s.frame.lost ++ [s.core.rows.physRow phys] } } else s
  let errs := s.holderErrs e false ++
    s.operandErr (c.extractLsb' 32 32 != 0 || c.getLsbD 15 || decide (s.tiles ≤ tile)) ++
    (if tile < s.tiles then mgetFmtErrs s.frame.cur.slot f.tag fmt tse else
      if 0xD ≤ fmt.toNat then [(Err.tagMismatch, BitVec.ofNat 64 s.frame.cur.slot)] else []) ++
    (if bad then [(Err.dataLoss, BitVec.ofNat 64 (s.core.rows.physRow phys))] else [])
  s.orElse errs fun s =>
    let ts : Fv := if tse then bf16.value (c.extractLsb' 16 16).toNat else .fin { neg := false, n := 1, e := 0 }
    let q := drainRow f.tag fmt (tileRow f.val row) ts
    (s.setCore { s.core with rows := s.core.rows.fixRow phys }).pushResult (mePort e) 6 q.1 q.2

/-! ## The state of a routine (R205, R206) -/

/-- A routine table entry's START, where it is valid (R205). One with V set and a reserved bit set, which an image or MPSW can put there, is
not: DESIGN CHOICE, unsafe (assumption 92). -/
def entryStart (e : BitVec 16) : Option Nat :=
  if e.getLsbD 15 ∧ e.extractLsb' 9 6 = 0 then some (e.extractLsb' 0 9).toNat else none
/-- vis(mp m) of an engine. -/
def Engine.visMp (g : Engine) (m : BitVec 3) : W64 := (SMap.get { vis := 0, hid := 0 } g.mp m.toNat : Face W64).vis
/-- An index register. -/
def Routine.x (r : Routine) (d : BitVec 3) : BitVec 16 := SMap.get 0 r.mx d.toNat
def Routine.setX (r : Routine) (d : BitVec 3) (v : BitVec 16) : Routine := { r with mx := r.mx.put d.toNat v }
def Routine.to (r : Routine) (a : Nat) : Routine := { r with upc := a }
def Routine.tileOf (r : Routine) (q : BitVec 2) : Option OpenTile := r.tiles.find? fun t => t.q == q.toNat

/-- The tile MACC opens has an internal accumulator of zero; a run copies the visible face where Z is 0 (R206). -/
def Routine.openTile (r : Routine) (q : BitVec 2) (tile : Nat) (v : Tile) : Routine :=
  { r with tiles := r.tiles ++ [{ q := q.toNat, tile := tile, val := v }] }

/-- The routine after a micro-operation, as far as its control state goes; none where its state requirement fails
(R206). MACC takes the accumulator's first value as an argument. An MLOOP inside two open levels fails also with a count of 0, which
opens none: DESIGN CHOICE, unsafe (assumption 85). -/
def Routine.after (r : Routine) (g : Engine) (m : MicroOp) (first : Nat → Tile) : Option Routine :=
  let n := r.upc + 1
  match m with
  | .mend => some r
  | .msela m => some { r with ad := some (g.visMp m), upc := n }
  | .mselb m => some { r with bd := some (g.visMp m), upc := n }
  | .mldx d m f => some ((r.setX d ((g.visMp m).extractLsb' (16 * f.toNat) 16)).to n)
  | .msetx d imm => some ((r.setX d imm).to n)
  | .maddx d imm => some ((r.setX d (r.x d + imm)).to n)
  | .mloop d e =>
    if 2 ≤ r.loops.length then none
    else if r.x d = 0 then some (r.to (e.toNat + 1))
    else some { r with loops := { body := n, stop := e.toNat, count := (r.x d).toNat } :: r.loops, upc := n }
  | .mnext =>
    match r.loops with
    | [] => none
    | l :: rest =>
      if l.stop ≠ r.upc then none
      else if 1 < l.count then some { r with loops := { l with count := l.count - 1 } :: rest, upc := l.body }
      else some { r with loops := rest, upc := n }
  | .mblk f => if f.toNat ≤ 5 then some { r with blk := 2 ^ (3 + f.toNat), upc := n } else none
  | .macc q d z =>
    if (r.tileOf q).isSome ∨ (r.x d).extractLsb' 4 12 ≠ 0 then none
    else some ((r.openTile q (r.x d).toNat (if z then 0 else first (r.x d).toNat)).to n)
  | .mmac q _ _ _ _ => if r.ad.isNone ∨ r.bd.isNone ∨ (r.tileOf q).isNone then none else some (r.to n)
  | .mspr on => some { r with spr := on, upc := n }
  | .mbz d t => some (r.to (if r.x d = 0 then t.toNat else n))
  | .mjmp t => some (r.to t.toNat)
  | .mwait _ => some (r.to n)
  | .mnop => some (r.to n)

/-! ## Descriptors (R195) -/

def dscSlot (d : W64) : Nat := (d.extractLsb' 0 5).toNat
def dscFmt (d : W64) : Tag := d.extractLsb' 8 4
def dscKs (d : W64) : Nat := (d.extractLsb' 16 16).toNat
def dscNr (d : W64) : Nat := (d.extractLsb' 32 16).toNat
/-- A valid descriptor: reserved bits zero, NR and KS in their ranges, and, where its format has a width, within the slot and
KS even for a 4-bit format. A format without one fails the format check after this (R98, R202). -/
def dscOk (d : W64) : Bool :=
  let w := if dscFmt d = 0 ∨ 0xD ≤ (dscFmt d).toNat then 0 else tagWidth (dscFmt d)
  d.extractLsb' 48 16 == 0 && d.extractLsb' 12 4 == 0 && d.extractLsb' 5 3 == 0 &&
    decide (1 ≤ dscNr d ∧ dscNr d ≤ 16384 ∧ 1 ≤ dscKs d ∧ dscKs d ≤ 32768) &&
    decide (dscNr d * dscKs d * w ≤ 131072) && (w != 4 || dscKs d % 2 == 0)

/-! ## The checks of MCALL (R202 to R204) -/

/-- Blocks of an MMAC of L elements (R207). -/
def blocks (l blk : Nat) : Nat := (l + blk - 1) / blk
/-- Pops an MMAC makes (R207). -/
def popsOf (c : W64) (l blk : Nat) : Nat := blocks l blk * ((cfgAsc c).toNat + (cfgBsc c).toNat)
/-- Whether an MMAC stays within its descriptors (R202, R204, R207). One with L = 0, which multiplies nothing, fits whatever its first rows
and k are, with sparsity too: DESIGN CHOICE, unsafe (assumption 92). -/
def mmacFits (r : Routine) (a b : W64) (i0 j0 k0 l : Nat) : Bool :=
  l == 0 ||
    (decide (i0 + 64 ≤ dscNr a) && decide (j0 + 64 ≤ dscNr b) && decide (k0 + l ≤ dscKs b) &&
      (if r.spr then k0 % 4 == 0 && l % 4 == 0 && decide ((k0 + l) / 2 ≤ dscKs a) else decide (k0 + l ≤ dscKs a)))
/-- Whether every selector of a metadata word is valid (R204). -/
def selectorsOk (w : W32) : Bool := (List.range 8).all fun g => decide ((w.extractLsb' (4 * g) 4).toNat ≤ 5)

/-- What a dry run has found: failures by the order of their checks, pops, and whether sparsity was turned on. -/
structure DryRun where
  errs : List (Nat × Nat × W64) := []
  pops : Nat := 0
  sparse : Bool := false
  deriving DecidableEq, Repr

/-- What the checks of one micro-operation need: the configuration, the claims, the tiles and their visible tags. -/
structure CallEnv where
  e : Bool
  cfg : W64
  slot : Nat
  owns : Nat → Bool
  tiles : Nat
  accTagOf : Nat → Tag

/-- The failures of checks 4 and 5 of a selected descriptor. -/
def CallEnv.dsc (v : CallEnv) (d : W64) (fmt : Tag) : List (Nat × Nat × W64) :=
  if !dscOk d then [(4, Err.operand, BitVec.ofNat 64 v.slot)]
  else if dscFmt d ≠ fmt then [(4, Err.tagMismatch, BitVec.ofNat 64 v.slot)]
  else if v.owns (dscSlot d) then [] else [(5, Err.larder, BitVec.ofNat 64 v.e.toNat)]
/-- The failures of checks 4 to 7 of a micro-operation that is legal. -/
def CallEnv.check (v : CallEnv) (g : Engine) (r : Routine) (m : MicroOp) : List (Nat × Nat × W64) :=
  match m with
  | .msela m => v.dsc (g.visMp m) (cfgA v.cfg)
  | .mselb m => v.dsc (g.visMp m) (cfgB v.cfg)
  | .macc _ d z =>
    let t := (r.x d).toNat
    if v.tiles ≤ t ∨ r.tiles.any (fun o => o.tile == t) then [(7, Err.operand, BitVec.ofNat 64 v.slot)]
    else if !z && v.accTagOf t != accTag v.cfg then [(7, Err.tagMismatch, BitVec.ofNat 64 v.slot)] else []
  | .mmac _ di dj dk dl =>
    if mmacFits r (r.ad.getD 0) (r.bd.getD 0) (r.x di).toNat (r.x dj).toNat (r.x dk).toNat (r.x dl).toNat then []
    else [(6, Err.operand, BitVec.ofNat 64 v.slot)]
  | _ => []

/-- The run of a routine from its state, with at most n micro-operations: the state at MEND, or the micro-address that
fails check 3; and what it found (R202). -/
def CallEnv.run (v : CallEnv) (g : Engine) : Nat → Routine → DryRun → Except Nat Routine × DryRun
  | 0, r, d => (.error r.upc, d)
  | n + 1, r, d =>
    if 512 ≤ r.upc then (.error 511, d)
    else
      match decodeMicroOp (SMap.get 0 g.store r.upc) with
      | none => (.error r.upc, d)
      | some .mend => (.ok r, d)
      | some m =>
        match r.after g m (fun _ => 0) with
        | none => (.error r.upc, d)
        | some r1 =>
          let pops := match m with
            | .mmac _ _ _ _ dl => popsOf v.cfg (r.x dl).toNat r.blk
            | _ => 0
          let on := match m with | .mspr b => b | _ => false
          CallEnv.run v g n r1 { errs := d.errs ++ v.check g r m, pops := d.pops + pops, sparse := d.sparse || on }

/-- The Larder slots a run reads: those it selects, read by an MMAC or not (DESIGN CHOICE, unsafe, assumption 86). -/
def CallEnv.slotsRead (v : CallEnv) (g : Engine) : Nat → Routine → List Nat
  | 0, _ => []
  | n + 1, r =>
    match decodeMicroOp (SMap.get 0 g.store r.upc) with
    | none => []
    | some .mend => []
    | some m =>
      let here := match m with
        | .msela m => [dscSlot (g.visMp m)]
        | .mselb m => [dscSlot (g.visMp m)]
        | _ => []
      match r.after g m (fun _ => 0) with
      | none => []
      | some r1 => here ++ CallEnv.slotsRead v g n r1

/-- The failure of the earliest check: the first found of it. -/
def firstCheck (l : List (Nat × Nat × W64)) : Option (Nat × W64) :=
  (l.foldl (fun (b : Option (Nat × Nat × W64)) e =>
    match b with
    | none => some e
    | some x => if e.1 < x.1 then some e else b) none).map (·.2)

/-- A cycle-class table with a line for a code address: the first free of 64, else the shared line 64 (R334). -/
def addLine (l : List CycleLine) (a : W64) : List CycleLine :=
  if l.any fun x => x.addr == a then l
  else if l.length < 64 then l ++ [{ addr := a, counts := [0, 0, 0, 0, 0] }]
  else if l.length = 64 then l ++ [{ addr := BitVec.allOnes 64, counts := [0, 0, 0, 0, 0] }] else l
/-- One cycle added to a counter of the line of a code address; counters saturate (R334). -/
def addCycle (l : List CycleLine) (a : W64) (cls : Nat) : List CycleLine :=
  let own := l.any fun x => x.addr == a
  l.map fun x => if x.addr == (if own then a else BitVec.allOnes 64) then
    { x with counts := x.counts.set cls (min (2 ^ 48 - 1) (x.counts.getD cls 0 + 1)) } else x

/-- The cycles from σ to a start offset w, modulo 2^24 (R201). -/
def startDelta (w : Word24) (sclk : W64) : Nat := (w - sclk.setWidth 24).toNat

/-- The error of an MCALL, if any check fails, and the slots and tiles of its run (R202). -/
def State.callCheck (s : State) (e : Bool) (rho : Nat) (w : Word24) : Except (Nat × W64) (List Nat × List Nat) :=
  let g := s.eng e
  let micro := fun (a : Nat) => (Err.microprogram, BitVec.ofNat 64 (e.toNat + 65536 * a))
  match s.holderErrs e true with
  | x :: _ => .error x
  | [] =>
    if g.busy then .error (engErr Err.engineBusy e)
    else
      match entryStart (SMap.get 0 g.rtab rho) with
      | none => .error (micro ((SMap.get (0 : BitVec 16) g.rtab rho).extractLsb' 0 9).toNat)
      | some start =>
        let v : CallEnv := { e := e, cfg := g.cfg.getD 0, slot := s.frame.cur.slot, owns := s.owns e, tiles := s.tiles,
                             accTagOf := fun t => (s.arch.regs.getAcc t).vis.tag }
        let r0 : Routine := { ctx := s.frame.cur.ctx, pc := s.frame.pc, sclk := s.arch.sclk, startAt := 0, upc := start }
        match v.run g 65536 r0 {} with
        | (.error a, _) => .error (micro a)
        | (.ok r, d) =>
          let md := (s.arch.metaWord s.ctx.fetch.mdbuf).getD (0, false)
          let supply := g.saffron.length + g.outLdsc
          let late := decide (2 ^ 23 ≤ startDelta w s.arch.sclk)
          let errs := d.errs ++
            (if d.sparse && md.2 then [(8, Err.metadataTranslation, s.arch.mpc)] else []) ++
            (if d.sparse && !md.2 && !selectorsOk md.1 then [(8, Err.sparsity, BitVec.ofNat 64 e.toNat)] else []) ++
            (if supply < d.pops then
              [(9, if supply = 0 then (Err.queueImbalance, BitVec.ofNat 64 e.toNat) else (Err.timing, 0x1FF))] else []) ++
            (if late then [(10, Err.timing, 0x1FF)] else [])
          match firstCheck errs with
          | some x => .error x
          | none => .ok (v.slotsRead g 65536 r0, r.tiles.map (·.tile))

/-- MCALL: checked, then accepted: the engine is Busy from issue (R201, R202). -/
def mcallOp (e : Bool) (t : TVal) (s : State) : State :=
  s.carried fun w s =>
    let rho := (t.c64.extractLsb' 0 6).toNat
    match s.callCheck e rho w with
    | .error x => s.raise x.1 x.2
    | .ok (reads, opens) =>
      let g := s.eng e
      let r : Routine := { ctx := s.frame.cur.ctx, pc := s.frame.pc, sclk := s.arch.sclk,
                           startAt := s.arch.sclk + BitVec.ofNat 64 (startDelta w s.arch.sclk),
                           mdw := ((s.arch.metaWord s.ctx.fetch.mdbuf).getD (0, false)).1,
                           upc := (entryStart (SMap.get 0 g.rtab rho)).getD 0, reads := reads, opens := opens }
      s.setEng e { g with busy := true, run := some r, lines := addLine g.lines s.frame.pc }

/-- ENGINE_START: the accepted routine begins its 8 fill cycles, the present core cycle the first (R201, R203). What the
context has issued so far, in a split start bundle too, performs before the fill ends. -/
def execEngineStart (s : State) : Host.Outcome State Fault Refusal :=
  let e := s.frame.cur.eng
  let g := s.eng e
  match g.run with
  | some r =>
    let x := s.core.ctx r.ctx
    if r.started then .next s
    else .next (s.setEng e { g with run := some { r with started := true, fill := 8,
                                                         startAt := if x.split.isSome then x.cur.sclk + 1 else x.cur.sclk },
                                    lines := addCycle g.lines r.pc 2 })
  | none => .next s

/-! ## The handler's patches and lent banks (R209, R210) -/

/-- A patch applied: a table entry or a micro-word (R209). -/
def Engine.patch (g : Engine) (m : Bool × Nat × W32) : Engine :=
  if m.1 then { g with rtab := g.rtab.put m.2.1 (m.2.2.setWidth 16) } else { g with store := g.store.put m.2.1 m.2.2 }

/-- MPSW: at once, or held while the engine is Busy (R209). -/
def mpswOp (e : Bool) (t : TVal) (s : State) : State :=
  let x := s.meX e
  let tab := x.getLsbD 9
  let i := if tab then (x.extractLsb' 0 6).toNat else (x.extractLsb' 0 9).toNat
  s.orElse (s.operandErr (x.extractLsb' 10 54 != 0 || (tab && x.extractLsb' 6 3 != 0))) fun s =>
    let g := s.eng e
    if g.busy ∨ g.mpsw ≠ [] then s.setEng e { g with mpsw := g.mpsw ++ [(tab, i, t.c32)] }
    else s.setEng e (g.patch (tab, i, t.c32))

/-- MPSW_DEFERRED_WRITE: the held patches, in the core cycle after the engine's Busy has fallen (R209). -/
def execMpswDeferredWrite (s : State) : Host.Outcome State Fault Refusal :=
  let e := s.frame.cur.eng
  let g := s.eng e
  if g.busy then .next s else .next (s.setEng e { g.mpsw.foldl Engine.patch g with mpsw := [] })

/-- LEND and RECLAIM: the binding bit of a bank from the next bundle on; an operand error where an executed slot of the
bundle writes the bank (R210). -/
def bindOp (lent : Bool) (t : TVal) (s : State) : State :=
  let b := (t.c64.extractLsb' 0 2).toNat
  s.orElse (s.operandErr (s.frame.banks.getLsbD b)) fun s =>
    let old := s.frame.newBind.getD s.arch.bind
    let m : BitVec 4 := BitVec.ofNat 4 (2 ^ b)
    { s with frame := { s.frame with newBind := some (if lent then old ||| m else old &&& ~~~m) } }

/-! ## The meanings -/

/-- The slot of MDRAIN, whose source is ignored: SRC = 0x1E0 (R191). -/
def drainSlot (g : Guard) : Slot := { gd := g, src := 0x1E0 }

/-- MCFG: Takes the engine and sets its configuration (R193). -/
def execMcfg (w : Slot) (e : Bool) (s : State) : Host.Outcome State Fault Refusal := meRun needUser (mcfgOp e) w s
def execMcfgExt (w : Slot) (e : Bool) (s : State) : Host.Outcome State Fault Refusal := meRunExt needUser (mcfgOp e) e w s

/-- MDRAIN: Ends a configuration at its waiting flip (R194). -/
def execMdrain (g : Guard) (e : Bool) (s : State) : Host.Outcome State Fault Refusal :=
  meRun needDrain (mdrainOp e) (drainSlot g) s
def execMdrainExt (w : Slot) (e : Bool) (s : State) : Host.Outcome State Fault Refusal :=
  meRunExt needDrain (mdrainOp e) e w s

/-- MCALL: Starts a routine at its start offset (R201, R202). -/
def execMcall (w : Slot) (e : Bool) (s : State) : Host.Outcome State Fault Refusal := meRun needUser (mcallOp e) w s
def execMcallExt (w : Slot) (e : Bool) (s : State) : Host.Outcome State Fault Refusal := meRunExt needUser (mcallOp e) e w s

/-- CLAIM: Claims a Larder slot (R196). -/
def execClaim (w : Slot) (e : Bool) (s : State) : Host.Outcome State Fault Refusal := meRun needUser (claimOp e) w s
def execClaimExt (w : Slot) (e : Bool) (s : State) : Host.Outcome State Fault Refusal := meRunExt needUser (claimOp e) e w s

/-- RELEASE: Releases a Larder slot (R196). -/
def execRelease (w : Slot) (e : Bool) (s : State) : Host.Outcome State Fault Refusal := meRun needUser (releaseOp e) w s
def execReleaseExt (w : Slot) (e : Bool) (s : State) : Host.Outcome State Fault Refusal :=
  meRunExt needUser (releaseOp e) e w s

/-- MPUT: Writes one Larder row (R197). -/
def execMput (w : Slot) (e : Bool) (s : State) : Host.Outcome State Fault Refusal := meRun needUser (mputOp e) w s
def execMputExt (w : Slot) (e : Bool) (s : State) : Host.Outcome State Fault Refusal := meRunExt needUser (mputOp e) e w s

/-- MGET: Drains one accumulator row to a vector (R200). -/
def execMget (w : Slot) (e : Bool) (s : State) : Host.Outcome State Fault Refusal := meRun needUser (mgetOp e) w s
def execMgetExt (w : Slot) (e : Bool) (s : State) : Host.Outcome State Fault Refusal := meRunExt needUser (mgetOp e) e w s

/-- MZERO: Clears one accumulator tile (R199). -/
def execMzero (w : Slot) (e : Bool) (s : State) : Host.Outcome State Fault Refusal := meRun needUser (mzeroOp e) w s
def execMzeroExt (w : Slot) (e : Bool) (s : State) : Host.Outcome State Fault Refusal := meRunExt needUser (mzeroOp e) e w s

/-- MLGET: Reads one Larder row (R197). -/
def execMlget (w : Slot) (e : Bool) (s : State) : Host.Outcome State Fault Refusal := meRun needUser (mlgetOp e) w s
def execMlgetExt (w : Slot) (e : Bool) (s : State) : Host.Outcome State Fault Refusal := meRunExt needUser (mlgetOp e) e w s

/-- MPSW: Patches a micro-word or a routine table entry (R209). -/
def execMpsw (w : Slot) (e : Bool) (s : State) : Host.Outcome State Fault Refusal := meRun needHandler (mpswOp e) w s
def execMpswExt (w : Slot) (e : Bool) (s : State) : Host.Outcome State Fault Refusal := meRunExt needHandler (mpswOp e) e w s

/-- LEND: Lends a vector bank to slot 6 (R210). -/
def execLend (w : Slot) (s : State) : Host.Outcome State Fault Refusal := meRun needUser (bindOp true) w s
def execLendExt (w : Slot) (s : State) : Host.Outcome State Fault Refusal := meRunExt needUser (bindOp true) false w s

/-- RECLAIM: Returns a vector bank to its home slot (R210). -/
def execReclaim (w : Slot) (s : State) : Host.Outcome State Fault Refusal := meRun needUser (bindOp false) w s
def execReclaimExt (w : Slot) (s : State) : Host.Outcome State Fault Refusal := meRunExt needUser (bindOp false) false w s

end Sys2Proof.Machine
end

