-- ==== Sys2Proof/Machine/Micro.lean ====
section
/-!
DEFINITION. The micro-operations of a matrix engine: control, descriptors, tiles, the 64 x 64 product with its exact
sums (R107 to R109, R204 to R207), the end of a routine (R208), and the cycles an engine spends (R203, R334).
-/
namespace Sys2Proof.Machine

/-! ## Elements of the operands (R195, R204) -/

/-- A slot's bytes as one little-endian number. -/
def slotBits (m : Memory) (slot : Nat) : Nat :=
  m.foldl (fun n c => if c.1 / 16384 = slot then n + c.2.toNat * 2 ^ (8 * (c.1 % 16384)) else n) 0

/-- The positions a selector names (R204). -/
def selPair (n : Nat) : Nat × Nat :=
  match n with
  | 0 => (0, 1) | 1 => (0, 2) | 2 => (0, 3) | 3 => (1, 2) | 4 => (1, 3) | _ => (2, 3)
/-- The stored element of a logical k under a metadata word; none where A is zero (R204). -/
def sparseAt (w : W32) (k : Nat) : Option Nat :=
  let p := selPair (w.extractLsb' (4 * (k % 32 / 4)) 4).toNat
  if k % 4 = p.1 then some (k / 4 * 2) else if k % 4 = p.2 then some (k / 4 * 2 + 1) else none

/-- A zero element. -/
def zeroEl : SrcEl × Flags := (.int 0, 0)
/-- Element (m, k) of a stored matrix (R195). -/
def denseEl (fmt : Tag) (bits ks m k : Nat) : SrcEl × Flags := srcElem fmt bits (m * ks + k)
/-- Element (m, k) of operand A, with sparsity off or on. -/
def aElem (fmt : Tag) (bits ks : Nat) (sparse : Option W32) (m k : Nat) : SrcEl × Flags :=
  match sparse with
  | none => denseEl fmt bits ks m k
  | some w => match sparseAt w k with
    | some j => denseEl fmt bits ks m j
    | none => zeroEl

def SrcEl.fv (x : SrcEl) : Fv :=
  match x with
  | .flt v => v
  | .int z => .fin (Dy.ofInt z 0)
def SrcEl.num (x : SrcEl) : Int :=
  match x with
  | .flt _ => 0
  | .int z => z

/-! ## Scales (R203, R207) -/

/-- A popped entry's value (R207); an entry that a stop has cancelled counts as 1, its product lands nowhere. -/
def scaleOf (q : List (Tag × Byte)) : Fv :=
  match q with
  | [] => .fin { neg := false, n := 1, e := 0 }
  | (t, c) :: _ => if t.toNat = 7 then e8m0Value c.toNat else (srcElem t c.toNat 0).1.fv
/-- The scale products of n blocks popped from the head of a queue, and the queue left (R207). -/
def popScales (asc bsc : Bool) : Nat → List (Tag × Byte) → List (Fv × Flags) × List (Tag × Byte)
  | 0, q => ([], q)
  | n + 1, q =>
    let q1 := if asc then q.drop 1 else q
    let q2 := if bsc then q1.drop 1 else q1
    let sa := if asc then scaleOf q else scaleOf []
    let sb := if bsc then scaleOf q1 else scaleOf []
    let r := popScales asc bsc n q2
    (Fv.mul sa sb :: r.1, r.2)

/-! ## Exact sums (R107 to R109) -/

/-- A list cut into pieces of 32. -/
def chunks32 {α : Type} : Nat → List α → List (List α)
  | 0, _ => []
  | n + 1, l => if l.isEmpty then [] else l.take 32 :: chunks32 n (l.drop 32)

/-- One chunk's terms added to an FP32 accumulator with one rounding; special values first (R107, R108). NV of
a malformed N4X pair is its operand's, beside the flags of the chunk's own addition (assumption 62). -/
def fpChunk (acc : Nat) (terms : List (Fv × Flags)) : Nat × Flags :=
  let a := terms.foldl (fun (a : SumAcc) t => a.push t.1) {}
  let fl := terms.foldl (fun f t => f ||| t.2) (if a.pinf && a.ninf then Flags.nv else 0)
  let x := a.value a.allNegZero
  let seen : Flags := if x.1.isNan then Flags.nanSeen else 0
  let s := Fv.add .rne (fp32.value acc) x.1
  let d := fp32.deliver .rne s.1
  (d.1, fl ||| x.2 ||| seen ||| s.2 ||| d.2)

/-- A term: scale, A element, B element; NV where it pairs 0 with an infinity, whatever its third factor is (R108). -/
def fpTerm (s a b : Fv × Flags) : Fv × Flags :=
  let l := [s.1, a.1, b.1]
  let pairs := l.any Fv.isZero && l.any Fv.isInf
  ((Fv.mul (Fv.mul s.1 a.1).1 b.1).1, s.2 ||| a.2 ||| b.2 ||| if pairs then Flags.nv else 0)

/-- An FP32 element after a command: its chunks in increasing k (R107). -/
def fpElement (acc : Nat) (ss as bs : List (Fv × Flags)) : Nat × Flags :=
  let terms := (ss.zip (as.zip bs)).map fun t => fpTerm t.1 t.2.1 t.2.2
  (chunks32 (terms.length + 1) terms).foldl (fun (r : Nat × Flags) c =>
    let x := fpChunk r.1 c
    (x.1, r.2 ||| x.2)) (acc, 0)

/-- An INT32 element after a command (R109). -/
def intElement (acc : Nat) (as bs : List Int) : Nat :=
  wrapTo 32 (Int.ofNat acc + ((as.zip bs).map fun t => t.1 * t.2).foldl (· + ·) 0)

/-! ## MMAC (R207) -/

/-- The operands of an MMAC: formats, slots' bits, KS, first rows and k, length, sparsity word. -/
structure MacArgs where
  fa : Tag
  fb : Tag
  abits : Nat
  bbits : Nat
  aks : Nat
  bks : Nat
  i0 : Nat
  j0 : Nat
  k0 : Nat
  len : Nat
  sparse : Option W32
  deriving DecidableEq, Repr

def MacArgs.rowA (v : MacArgs) (i : Nat) : List (SrcEl × Flags) :=
  (List.range v.len).map fun p => aElem v.fa v.abits v.aks v.sparse (v.i0 + i) (v.k0 + p)
def MacArgs.rowB (v : MacArgs) (j : Nat) : List (SrcEl × Flags) :=
  (List.range v.len).map fun p => denseEl v.fb v.bbits v.bks (v.j0 + j) (v.k0 + p)

/-- A tile from its 4,096 elements, row by row. -/
def packTile (l : List Nat) : Tile := BitVec.ofNat 131072 (l.foldr (fun v n => v + n * 2 ^ 32) 0)
/-- Element (i, j) of a tile as a 32-bit code (R198). -/
def tileEl (t : Tile) (i j : Nat) : Nat := (t.extractLsb' (2048 * i + 32 * j) 32).toNat

/-- The product accumulated into a tile: INT32 (R109), or FP32 with the scale of each position (R107, R108). -/
def MacArgs.apply (v : MacArgs) (int : Bool) (scale : List (Fv × Flags)) (t : Tile) : Tile × Flags :=
  let rows := (List.range 64).map v.rowA
  let cols := (List.range 64).map v.rowB
  if int then
    (packTile ((List.range 64).flatMap fun i => (List.range 64).map fun j =>
      intElement (tileEl t i j) ((rows.getD i []).map (·.1.num)) ((cols.getD j []).map (·.1.num))), 0)
  else
    let fp := fun (l : List (SrcEl × Flags)) => l.map fun e => (e.1.fv, e.2)
    let els := (List.range 64).flatMap fun i => (List.range 64).map fun j =>
      fpElement (tileEl t i j) scale (fp (rows.getD i [])) (fp (cols.getD j []))
    (packTile (els.map (·.1)), els.foldl (fun f x => f ||| x.2) 0)

/-- The bytes of a slot that hold len elements of w bits of each of 64 matrix rows: first byte and length (R195). -/
def macBytes (ks w m0 k0 len : Nat) : List (Nat × Nat) :=
  if len = 0 then []
  else (List.range 64).map fun i =>
    let a := ((m0 + i) * ks + k0) * w
    (a / 8, (a + len * w + 7) / 8 - a / 8)
/-- The first erring Larder word among those bytes (R250). -/
def Rows.macLoss (x : Rows) (slot : Nat) (l : List (Nat × Nat)) : Option W64 :=
  if x.errs = [] then none
  else (l.flatMap fun r => wordsOf r.1 r.2).findSome? fun b =>
    if x.badSlot slot (b / 256) (b % 256 / 8) then some (x.lossOfRow slot (b / 256)) else none
/-- The Larder rows that hold those bytes. -/
def macRows (l : List (Nat × Nat)) : List Nat :=
  (List.range 64).filter fun row => l.any fun r => decide (r.1 < 256 * row + 256) && decide (256 * row < r.1 + r.2)
/-- A read of Larder rows corrects their single-bit errors (R249). -/
def Rows.fixSlotRows (x : Rows) (slot : Nat) (l : List Nat) : Rows :=
  if x.errs = [] then x else l.foldl (fun x row => x.fixSlotRow slot row) x

/-- The micro-operation's first cycle: control state, the cycles left, its charge (R206, R334). -/
def State.microStep (s : State) (m : MicroOp) (cost cls : Nat) : State :=
  let e := s.frame.cur.eng
  let g := s.eng e
  match g.run with
  | none => s
  | some r =>
    match r.after g m (fun t => ((s.core.ctx r.ctx).cur.regs.getAcc t).vis.val) with
    | none => s
    | some r1 => s.setEng e { g with run := some { r1 with left := cost - 1, cls := cls }, lines := addCycle g.lines r.pc cls }

/-- The elements an MMAC counts and its core cycles (R207). -/
def macCost (cfg : W64) (l : Nat) (spr : Bool) : Nat :=
  max 1 ((4096 * (if spr then l / 2 else l) + macRate cfg - 1) / macRate cfg)

/-- MMAC's product: scales popped, the open tile and the flags of the issue phase updated (R203, R207). An MMAC reads each
Larder row that holds an element of its operands once (R346; assumption 36). -/
def State.accumulate (s : State) (q : BitVec 2) (i0 j0 k0 l : Nat) : State :=
  let e := s.frame.cur.eng
  let g := s.eng e
  match g.run with
  | none => s
  | some r =>
    let cfg := g.cfg.getD 0
    let a := r.ad.getD 0
    let b := r.bd.getD 0
    let k := s.core
    let pop := popScales (cfgAsc cfg) (cfgBsc cfg) (blocks l r.blk) g.saffron
    let v : MacArgs := { fa := cfgA cfg, fb := cfgB cfg, abits := slotBits k.larder (dscSlot a),
                         bbits := slotBits k.larder (dscSlot b), aks := dscKs a, bks := dscKs b, i0 := i0, j0 := j0, k0 := k0,
                         len := l, sparse := if r.spr then some r.mdw else none }
    let scale := (List.range l).map fun p => pop.1.getD (p / r.blk) (scaleOf [], 0)
    let t := (r.tileOf q).map (·.val)
    let res := v.apply (accTag cfg == 8) scale (t.getD 0)
    let la := macBytes (dscKs a) (tagWidth (cfgA cfg)) i0 (if r.spr then k0 / 2 else k0) (if r.spr then l / 2 else l)
    let lb := macBytes (dscKs b) (tagWidth (cfgB cfg)) j0 k0 l
    let loss := (k.rows.macLoss (dscSlot a) la).or (k.rows.macLoss (dscSlot b) lb)
    let r1 := { r with tiles := r.tiles.map fun o => if o.q == q.toNat then { o with val := res.1 } else o,
                       dataLoss := r.dataLoss.or loss }
    let rows := (k.rows.fixSlotRows (dscSlot a) (macRows la)).fixSlotRows (dscSlot b) (macRows lb)
    let s1 := (s.setCore { k with rows := rows }).setEng e { g with run := some r1, saffron := pop.2 }
    let x := s1.core.ctx r.ctx
    let s2 := if x.status = .stopped then s1 else
      s1.setCore (s1.core.setCtx r.ctx { x with cur := x.cur.raiseFlags res.2 (s1.enablesOf s1.frame.cur.core r.ctx) })
    (s2.chargeHere 0 (4096 * (if r.spr then l / 2 else l) * cfgDa cfg * cfgDb cfg)).chargeHere 4
      ((macRows la).length + (macRows lb).length)

/-! ## The end of a routine (R208, R250) -/

/-- The tile writes, or the completion write, land, and Busy falls; a stopped context's registers are left (R59). -/
def State.finishRoutine (s : State) (e : Bool) : State :=
  let g := s.eng e
  match g.run with
  | none => s
  | some r =>
    let s1 := s.setEng e { g with busy := false, run := none }
    let x := s1.core.ctx r.ctx
    if x.status = .stopped ∨ x.status = .absent then s1
    else
      let tag := accTag (g.cfg.getD 0)
      let regs := r.tiles.foldl (fun (a : RegFile) t => a.landAcc t.tile { val := t.val, tag := tag }) x.cur.regs
      let w := if e then 5 else 4
      let done := if r.tiles.isEmpty then [(w, 0x1FF, r.sclk, (none : Option W64))]
        else r.tiles.map fun t => (w, 0xC0 + t.tile, r.sclk, none)
      let k := r.tiles.foldl (fun (k : Core) t => k.clearTile r.ctx s.tiles t.tile) s1.core
      s1.setCore (k.setCtx r.ctx { x with cur := { x.cur with regs := regs }, landed := x.landed ++ done })

/-- A hardware error the routine has read: its context stops, its writes are cancelled, the routine ends (R250). -/
def State.loseRoutine (s : State) (e : Bool) (r : Routine) (d : W64) : State :=
  (s.stopStanding s.frame.cur.core r.ctx Err.dataLoss d r.pc).setEng e
    { (s.stopStanding s.frame.cur.core r.ctx Err.dataLoss d r.pc).eng e with busy := false, run := none }

/-- MEND: begins its 4 cycles for each open tile, at least 1; in the last of them, or, where the routine has met an error, in the
one before, the end is noted; at the end of that cycle the writes land, or the error stops the context (R206, R208, R250). -/
def execMend (s : State) : Host.Outcome State Fault Refusal :=
  let e := s.frame.cur.eng
  let g := s.eng e
  match g.run with
  | none => .next s
  | some r =>
    if r.done then
      match r.dataLoss with
      | some d => .next (s.loseRoutine e r d)
      | none => .next (s.finishRoutine e)
    else if r.ending then .next (s.setEng e { g with run := some { r with done := r.left == 0 || r.dataLoss.isSome } })
    else
      let n := max 1 (4 * r.tiles.length)
      .next (s.setEng e { g with run := some { r with ending := true, left := n - 1, cls := 3, done := n == 1 },
                                 lines := addCycle g.lines r.pc 3 })

/-! ## The other micro-operations (R206) -/

/-- MSELA: AD := vis(mp m). -/
def execMsela (m : BitVec 3) (s : State) : Host.Outcome State Fault Refusal := .next (s.microStep (.msela m) 8 1)
/-- MSELB: BD := vis(mp m). -/
def execMselb (m : BitVec 3) (s : State) : Host.Outcome State Fault Refusal := .next (s.microStep (.mselb m) 8 1)
/-- MLDX: an index register from a field of an mp register. -/
def execMldx (d m : BitVec 3) (f : BitVec 2) (s : State) : Host.Outcome State Fault Refusal :=
  .next (s.microStep (.mldx d m f) 1 0)
/-- MSETX: an index register set. -/
def execMsetx (d : BitVec 3) (imm : BitVec 16) (s : State) : Host.Outcome State Fault Refusal :=
  .next (s.microStep (.msetx d imm) 1 0)
/-- MADDX: a signed immediate added modulo 2^16. -/
def execMaddx (d : BitVec 3) (imm : BitVec 16) (s : State) : Host.Outcome State Fault Refusal :=
  .next (s.microStep (.maddx d imm) 1 0)
/-- MLOOP: opens a micro-loop, or passes it where the count is 0. -/
def execMloop (d : BitVec 3) (e : BitVec 9) (s : State) : Host.Outcome State Fault Refusal :=
  .next (s.microStep (.mloop d e) 1 0)
/-- MNEXT: closes an iteration. -/
def execMnext (s : State) : Host.Outcome State Fault Refusal := .next (s.microStep .mnext 1 0)
/-- MBLK: BLK := 2^(3 + f). -/
def execMblk (f : BitVec 3) (s : State) : Host.Outcome State Fault Refusal := .next (s.microStep (.mblk f) 1 0)
/-- MACC: opens tile q; without Z its internal accumulator takes the visible face, whose errors count, and whose erring row is
reported (R61, R250), of several rows the first alone: DESIGN CHOICE, unsafe (assumption 91). -/
def execMacc (q : BitVec 2) (d : BitVec 3) (z : Bool) (s : State) : Host.Outcome State Fault Refusal :=
  let e := s.frame.cur.eng
  match (s.eng e).run with
  | none => .next s
  | some r =>
    let k := s.core
    let row := fun i => k.faceRow r.ctx s.tiles (r.x d).toNat i
    let lost := if z then none else (List.range 64).findSome? fun i =>
      if k.rows.badRow (row i) then some (k.rows.physRow (row i)) else none
    let s1 := (if z || k.rows.errs.isEmpty then s else
      s.setCore { k with rows := lost.toList.foldl Rows.report ((List.range 64).foldl (fun x i => x.fixRow (row i)) k.rows) }).microStep
        (.macc q d z) 1 0
    match lost, (s1.eng e).run with
    | some l, some r1 =>
      .next (s1.setEng e { s1.eng e with run := some { r1 with dataLoss := r1.dataLoss.or (some (BitVec.ofNat 64 l)) } })
    | _, _ => .next s1
/-- MMAC: a 64 x 64 product accumulated into open tile q (R207). -/
def execMmac (q : BitVec 2) (di dj dk dl : BitVec 3) (s : State) : Host.Outcome State Fault Refusal :=
  match (s.eng s.frame.cur.eng).run with
  | none => .next s
  | some r =>
    let l := (r.x dl).toNat
    let s1 := s.microStep (.mmac q di dj dk dl) (macCost ((s.eng s.frame.cur.eng).cfg.getD 0) l r.spr) 0
    if l = 0 then .next s1 else .next (s1.accumulate q (r.x di).toNat (r.x dj).toNat (r.x dk).toNat l)
/-- MSPR: the sparsity switch. -/
def execMspr (on : Bool) (s : State) : Host.Outcome State Fault Refusal := .next (s.microStep (.mspr on) 1 0)
/-- MBZ: continues at the target where the index register is 0. -/
def execMbz (d : BitVec 3) (t : BitVec 9) (s : State) : Host.Outcome State Fault Refusal :=
  .next (s.microStep (.mbz d t) 1 0)
/-- MJMP: continues at the target. -/
def execMjmp (t : BitVec 9) (s : State) : Host.Outcome State Fault Refusal := .next (s.microStep (.mjmp t) 1 0)
/-- MWAIT: idles for n + 1 cycles. -/
def execMwait (n : BitVec 16) (s : State) : Host.Outcome State Fault Refusal :=
  .next (s.microStep (.mwait n) (n.toNat + 1) 2)
/-- MNOP: nothing. -/
def execMnop (s : State) : Host.Outcome State Fault Refusal := .next (s.microStep .mnop 1 0)

/-! ## An engine's core cycle (R203, R334) -/

/-- A micro-operation's meaning; the same as exec's of its instruction (Laws). -/
def runMicro (m : MicroOp) (s : State) : Host.Outcome State Fault Refusal :=
  match m with
  | .mend => execMend s
  | .msela m => execMsela m s
  | .mselb m => execMselb m s
  | .mldx d m f => execMldx d m f s
  | .msetx d i => execMsetx d i s
  | .maddx d i => execMaddx d i s
  | .mloop d e => execMloop d e s
  | .mnext => execMnext s
  | .mblk f => execMblk f s
  | .macc q d z => execMacc q d z s
  | .mmac q di dj dk dl => execMmac q di dj dk dl s
  | .mspr on => execMspr on s
  | .mbz d t => execMbz d t s
  | .mjmp t => execMjmp t s
  | .mwait n => execMwait n s
  | .mnop => execMnop s

/-- The micro-operation an engine has reached: MEND until its writes land, else the word at its micro-address. -/
def Engine.reached (g : Engine) : Option MicroOp :=
  match g.run with
  | none => none
  | some r => if r.ending then some .mend else decodeMicroOp (SMap.get 0 g.store r.upc)

/-- The micro-operation the cursor's engine has reached, run (R206); nothing where it has none. -/
def State.runReached (s : State) : Host.Outcome State Fault Refusal :=
  match (s.eng s.frame.cur.eng).reached with
  | some m => runMicro m s
  | none => .next s

/-- Whether a slot word is an MPUT. -/
def isMput (j : Nat) (w : Word24) : Bool :=
  match slotTarget (Cls.ofSlot j) (slotDst w) with
  | some (some .mput) => true
  | some (some .mputExt) => true
  | _ => false
/-- Whether a split bundle still has an MPUT to issue in a later sub-bundle. -/
def SplitRun.owesMput (r : SplitRun) : Bool := r.slots.any fun x => isMput x.1 x.2 && r.subs.contains (subOf r.frame.split x.1)
/-- Whether an MPUT or LDSC that the routine's context issued up to the start, in the start bundle too, has not performed (R203). -/
def Core.fillWaits (k : Core) (r : Routine) : Bool :=
  (k.accs.any fun a => a.ctx == r.ctx && decide (a.sclk.toNat < r.startAt.toNat) &&
    (match a.kind with | .mput .. => true | .ldsc .. => true | _ => false)) ||
    match (k.ctx r.ctx).split with
    | some p => decide ((k.ctx r.ctx).cur.sclk.toNat < r.startAt.toNat) && p.owesMput
    | none => false

/-- One core cycle of an engine, skipped or not, and whether a micro-operation runs in it: fill cycles, and the cycles left of
the micro-operation in progress (R203, R208, R334). -/
def Engine.tick (g : Engine) (waits : Routine → Bool) : Engine × Bool :=
  match g.run with
  | none => (g, false)
  | some r =>
    let charged := fun (cls : Nat) => addCycle g.lines r.pc cls
    if !r.started then (g, false)
    else if 1 < r.fill then ({ g with run := some { r with fill := r.fill - 1 }, lines := charged 2 }, false)
    else if r.fill = 1 ∧ waits r then ({ g with lines := charged 2 }, false)
    else if r.left = 0 then ({ g with run := some { r with fill := 0 } }, true)
    else
      ({ g with run := some { r with left := r.left - 1 }, lines := charged r.cls },
        r.ending && (r.left == 1 || (r.left == 2 && r.dataLoss.isSome)))

/-- The cycle of an engine that runs nothing, charged at its end: to the idle counter, or as "without command" to an accepted
MCALL that has not started (R208, R334). -/
def Engine.rest (g : Engine) : Engine :=
  match g.run with
  | none => { g with idle := min (2 ^ 48 - 1) (g.idle + 1) }
  | some r => if r.started then g else { g with lines := addCycle g.lines r.pc 4 }

end Sys2Proof.Machine
end

