-- ==== Sys2Proof/Machine/Flip.lean ====
section
/-!
DEFINITION. The end of a phase: results and am updates that come due (R45, R40, R111), the flip with its timing check
(R41, R48), the waiting flip (R49), deferred events (R57, R58), what follows a flip (R130, R132, R134, R302 to R305), the
release of blocked contexts (R129), timers (R133).
-/
namespace Sys2Proof.Machine

/-- A step put at the end of the present instant's list. -/
def State.soon (s : State) (cur : Cursor) (i : Instr) : State := { s with todo := s.todo ++ [.exec cur i] }

/-! ## Results and am updates (R40, R45, R111) -/

/-- RESULT_DELIVERY: the results of the cursor's context due at or before its SCLK reach their ports (R45, R46). -/
def execResultDelivery (s : State) : Host.Outcome State Fault Refusal :=
  let a := s.arch
  .next (s.setArch (a.deliver a.sclk (s.enablesOf s.frame.cur.core s.frame.cur.ctx)))

/-- One am update's landing (R16, R40). -/
def Ctx.landAm (x : Ctx) (u : AmWrite) : Ctx :=
  { x with cur := { x.cur with regs := x.cur.regs.landAm u.am u.val, amPend := x.cur.amPend.erase u },
           landed := x.landed ++ [(u.slot, 0x8C + u.am, u.issued, some (u.val.setWidth 64))] }
/-- The am updates of a context that land: due at or before an sc, or all; of one slot, or of every slot. -/
def Ctx.amDue (x : Ctx) (sc : W64) (all : Bool) (slot : Option Nat) : List AmWrite :=
  x.cur.amPend.filter fun u => (all || decide (u.due.toNat ≤ sc.toNat)) && (slot.isNone || slot == some u.slot)
/-- Those updates landed in one cycle: in the order of their slots, those of one slot in that of their issue (R43). -/
def Ctx.landAms (x : Ctx) (sc : W64) (all : Bool) (slot : Option Nat) : Ctx :=
  let l := sortBy (fun (a b : AmWrite) => decide (a.slot < b.slot ∨ (a.slot = b.slot ∧ a.due.toNat ≤ b.due.toNat)))
    (x.amDue sc all slot)
  l.foldl Ctx.landAm x
/-- AM_UPDATE_LAND: the am updates of the cursor's context that have come due (R40). -/
def execAmUpdateLand (s : State) : Host.Outcome State Fault Refusal :=
  .next (s.setCtx (s.ctx.landAms s.arch.sclk false none))

/-! ## The waiting flip (R49) -/

/-- Whether a FLIP.W still waits: for a write of the phase, the answer of a CATOM that the phase issued (R181), or the LDSC
pushes of an engine that an MDRAIN of the bundle ends (R194). -/
def Core.flipWaits (k : Core) (c : Nat) (fi : FlipInfo) : Bool :=
  !(k.outstanding c).isEmpty ||
    (k.ce.catoms.any fun m => m.ctx == c && !m.old) ||
    fi.mdrain.any fun e => (k.eng e).holder == BitVec.ofNat 3 c && (k.eng e).outLdsc != 0

/-! ## The exchange (R41, R20) -/

/-- Every written register's faces exchanged, FLG updated, vis(p15) refreshed for a user context. -/
def RegFile.flip (r : RegFile) (p15 : Option Bool) : RegFile :=
  let p := r.p.mapVal fun _ f => f.flip
  { s := r.s.mapVal fun _ f => f.flip, a := r.a.mapVal fun _ f => f.flip, v := r.v.mapVal fun _ f => f.flip,
    p := match p15 with
      | some b => p.put 15 { SMap.get { vis := false, hid := false } p 15 with vis := b }
      | none => p,
    m := r.m.mapVal fun _ f => f.flip, nt := r.nt.mapVal fun _ f => f.flip, am := r.am.mapVal fun _ f => f.flip,
    acc := r.acc.mapVal fun _ f => f.flip, flg := r.flg.flip, grp := r.grp }

/-- The mp sets a context holds exchanged (R41, R192), then MDRAIN's effects (R194). -/
def Core.flipMp (k : Core) (c : Nat) (drains : List Bool) : Core :=
  let one := fun (k : Core) (e : Bool) =>
    let g := k.eng e
    if g.holder = BitVec.ofNat 3 c then k.setEng e { g with mp := g.mp.mapVal fun _ f => f.flip } else k
  drains.foldl (fun k e => k.setEng e ((k.eng e).drain c)) (one (one k false) true)

/-- VAn.k after a safe point: zero (R138). -/
def clearMasks (m : SMap TVal) : SMap TVal := (m.del (keyOf 2 0x102)).del (keyOf 3 0x102)

/-! ## What follows a flip -/

/-- A member's arrival at a barrier, with the step length its BAR declares (R130, R296, R297). -/
def State.arrive (s : State) (core c g n : Nat) : State :=
  s.modLaunchAt core fun l =>
    let e := SMap.get {} l.episodes g
    { l with episodes := l.episodes.put g { arrived := e.arrived ++ [((l.logical core, c), if g = 255 then n else 0)] } }

/-- The yield condition: some other user context has been ready without issuing for the quantum of 60,000 PCC cycles
(R302). -/
def Core.yields (k : Core) (c pcc : Nat) : Bool :=
  (List.range 4).any fun d => d != c && (k.ctx d).status == .ready && decide (60000 ≤ pcc - (k.ctx d).since)

/-- The served context after an ERET (R132): resume, redirect, kill, and the reserved action. -/
def State.eretAction (s : State) (core action : Nat) (target : W64) : State :=
  let k := s.coreAt core
  match k.svc.served with
  | none => s
  | some u =>
    let s1 := s.setCoreAt core { k with svc := {} }
    let x := k.ctx u
    if x.status ≠ .inService then s1
    else
      match action with
      | 0 => s1.giveBack core u
      | 1 =>
        match s1.targetError core u target with
        | some e => s1.stopStanding core u e.1 e.2 0
        | none =>
          s1.setCoreAt core ((s1.coreAt core).setCtx u
            { x with cur := { x.cur with pc := target }, start := { x.cur with pc := target }, status := .ready, cond := none,
                     first := k.cyc + 1, since := s.pcc })
      | 2 => s1.stopStanding core u Err.handlerKill 0 0
      | _ => s1.stopStanding core u Err.reservedEret 0 0

/-- The condition of a blocking operation (R130); a barrier's release marks its members itself (R296). -/
def Core.condHolds (k : Core) (c : Nat) (d : BlockCond) : Bool :=
  match d with
  | .bar _ => false
  | .done => true
  | .waitbm b m => SMap.get 0 (k.ctx c).cb b &&& m == m
  | .waitwp j w => decide (w.toNat ≤ (if j then k.ce.wp1 else k.ce.wp0).toNat)

/-- A context released: ready, and issuing from the next core cycle on (R129). -/
def Core.release (k : Core) (c pcc : Nat) : Core :=
  k.setCtx c { k.ctx c with status := .ready, cond := none, since := pcc, first := k.cyc + 1 }

/-- The standing of a user context after its flip, without deferred events. -/
def FlipInfo.standing (fi : FlipInfo) : CtxStatus :=
  if fi.halt then .halted else if fi.block.isSome then .blocked else .ready

/-- What follows a flip at a safe point where the context goes on: a pre-emption stops it there, or its yield condition holds
(R302, R305). -/
def State.atSafePoint (s : State) (core c : Nat) : State :=
  if s.preempting core then s.switchFrom core c 2
  else if (s.coreAt core).yields c s.pcc then s.switchFrom core c 4
  else s

/-- The steps that test a barrier's release and then the context that blocks there (R129, R296). -/
def State.barTest (s : State) (core c : Nat) (g : Byte) : List Todo :=
  let cur : Cursor := { core := core, ctx := c, part := s.partOfCore core, die := dieOf core }
  [.exec cur (.barrierRelease (((s.coreAt core).launch.map (·.2)).getD 0) g), .exec cur .blockRelease]

/-- The steps a flip leaves: a pending firmware evacuation, before another cycle of the core; the test of a WAITBM's or WAITWP's
condition at the end of the same core cycle; that of a barrier, whose members may arrive on other cores in the same instant, at the
end of the instant (R129, R247, R296). -/
def State.afterFlip (s : State) (core c : Nat) (fi : FlipInfo) : State :=
  let cur : Cursor := { core := core, ctx := c, part := s.partOfCore core, die := dieOf core }
  let s1 := match fi.block with
    | some (.bar g) => { s with todo := s.todo ++ s.barTest core c g }
    | some _ => { s with todo := .exec cur .blockRelease :: s.todo }
    | none => s
  if fi.safe.isSome && (s1.coreAt core).rows.evacPend then { s1 with todo := .exec cur .firmwareEvacuation :: s1.todo } else s1

/-- The core's choice after a user context's flip (R58, R302, R305): the context is cancelled at a safe point, awaits the
handler, has halted, is parked for a pre-emption, yields, or goes on; a blocked one switches when its condition has been tested. -/
def State.chooseAfter (s : State) (core c : Nat) (fi : FlipInfo) (event : Bool) : State :=
  let cancel := fi.safe.isSome && ((s.launchAt core).map (·.cancel)).getD false
  if cancel then s.stopStanding core c Err.launchCancelled 0 0
  else if event then s.switchFrom core c 3
  else if fi.halt then (s.endHalted core c).switchFrom core c 1
  else if fi.block.isNone && fi.safe.isSome then s.atSafePoint core c
  else s

/-- A context's hit of a watchpoint delivered at its flip (R165). -/
def Watchpoint.delivered (w : Watchpoint) (c : Nat) : Watchpoint := { w with hits := w.hits &&& ~~~(BitVec.ofNat 5 (2 ^ c)) }

/-- The flip of a context: the exchange, the record, the phase's deferred events, the arrival, what follows (R41). A timer
request pending at a safe point is served with the phase's events, but where a pre-emption stops the context there (R133, R305). -/
def State.flipNow (s : State) (core c : Nat) (fi : FlipInfo) : State :=
  let k := s.coreAt core
  let x := k.ctx c
  let user := c != handlerCtx
  let sclk := (x.cur.sclk - 1).toNat
  let stays := fi.safe.isNone || s.preempting core
  let timer := x.timerReq && !stays && (s.part (s.partOfCore core)).hcode != 0
  let event := user && (x.cur.trapCount != 0 || k.hitsOf c != 0 || x.cur.arith != 0 || timer)
  let entry : Entry := { cause := k.causeOf c timer, trap := x.cur.trapWord, pcc := s.pcc }
  let a := { x.cur with regs := x.cur.regs.flip (if user then some k.p15 else none),
                        opnd := if user && fi.safe.isSome then clearMasks x.cur.opnd else x.cur.opnd,
                        trapCode := 0, trapCount := 0, arith := 0 }
  let y := { x with cur := a, start := a, noRoll := false, replay := false, landed := [], cut := [], flip := none,
                    mpOld := [], kept := [], mdStart := x.fetch.mdbuf,
                    status := if !user then .inService else if event then .awaiting else fi.standing, after := fi.standing,
                    cond := fi.block, entry := if event then some entry else none,
                    timerReq := x.timerReq && stays, since := s.pcc, first := max x.first (k.cyc + 1), safeAt := fi.safe }
  let k1 := (k.flipMp c fi.mdrain).setCtx c y
  let k2 := { k1 with wps := k1.wps.mapVal fun _ (w : Watchpoint) => w.delivered c, ce := k1.ce.endPhase c }
  let k3 := match fi.safe with
    | some l => k2.trace s.pcc c 3 0 (l % 65536 + 65536 * (sclk % 2 ^ 24))
    | none => k2.trace s.pcc c 2 0 sclk
  let s1 := s.setCoreAt core k3
  let s2 := match fi.block with
    | some (.bar g) => s1.arrive core c g.toNat fi.barStep
    | _ => s1
  if user then (s2.chooseAfter core c fi event).afterFlip core c fi
  else
    match fi.eret with
    | some (action, t) => (s2.eretAction core action t).switchFrom core handlerCtx 5
    | none => s2

/-- A timing fault's stop: no exchange; the bundle's address and SCLK are recorded (R48, R59, R320). -/
def State.timingFault (s : State) (core c : Nat) (fi : FlipInfo) : State :=
  let k := s.coreAt core
  s.stop core c { errs := [(Err.timing, BitVec.ofNat 64 (earliest (k.outstanding c)))], pc := fi.pc,
                  sclk := (k.ctx c).cur.sclk - 1 }

/-- FLIP: at the end of the bundle's last sub-bundle, after every landing of that cycle (R41); a write of the phase not
landed is a timing fault (R48). -/
def execFlip (s : State) : Host.Outcome State Fault Refusal :=
  let core := s.frame.cur.core
  let c := s.frame.cur.ctx
  match s.ctx.flip with
  | none => .next s
  | some fi =>
    if fi.wait ∨ s.core.cyc < fi.last then .next s
    else if (s.core.outstanding c).isEmpty then .next (s.flipNow core c fi)
    else .next (s.timingFault core c fi)

/-- FLIP_W_COMPLETE: the waiting flip in the core cycle in which the last outstanding write lands (R49). -/
def execFlipWComplete (s : State) : Host.Outcome State Fault Refusal :=
  let core := s.frame.cur.core
  let c := s.frame.cur.ctx
  match s.ctx.flip with
  | none => .next s
  | some fi =>
    if !fi.wait || decide (s.core.cyc < fi.last) || s.core.flipWaits c fi then .next s else .next (s.flipNow core c fi)

/-! ## Release and timers (R129, R133) -/

/-- BLOCK_RELEASE: the cursor's context's condition tested at the end of a core cycle (R129). A context that has kept its place
since its flip goes on, or gives way as at any safe point, where its condition holds; a false one makes the switch (R302). -/
def execBlockRelease (s : State) : Host.Outcome State Fault Refusal :=
  let core := s.frame.cur.core
  let c := s.frame.cur.ctx
  let k := s.core
  let x := k.ctx c
  if x.status ≠ .blocked then
    if x.status = .ready ∧ k.issuing = some c ∧ x.safeAt.isSome then .next (s.atSafePoint core c) else .next s
  else
    match x.cond with
    | none => .next s
    | some d =>
      if k.condHolds c d then
        let s1 := s.setCore (k.release c s.pcc)
        .next (if k.issuing = some c then s1.atSafePoint core c else s1)
      else if k.issuing = some c then .next (s.switchFrom core c 0)
      else .next s

/-- TIMER_EXPIRY: the deadline reached, the timer disarms and a request is pending (R133). -/
def execTimerExpiry (s : State) : Host.Outcome State Fault Refusal :=
  let x := s.ctx
  match x.timer with
  | some d => if d ≤ s.pcc then .next (s.setCtx { x with timer := none, timerReq := true }) else .next s
  | none => .next s

end Sys2Proof.Machine
end

