-- ==== Sys2Proof/Machine/Scalar.lean ====
section
/-!
DEFINITION. The scalar, address and predicate operations of slots 0 and 1 (R113 to R118).
-/
namespace Sys2Proof.Machine

/-- A 32-bit 0 or 1. -/
def bit32 (b : Bool) : W32 := (BitVec.ofBool b).zeroExtend 32
/-- A shift amount: c[4:0] (R115). -/
def shamt (c : W32) : Nat := (c.extractLsb' 0 5).toNat
/-- An exact sum clamped once to 32 signed bits, with SAT if it clamped (R106). -/
def satW32 (z : Int) : W32 × Flags := (BitVec.ofNat 32 (satSigned 32 z).1, (satSigned 32 z).2)
/-- A field specification's lowest bit P = c[4:0] and length N = c[9:5] + 1 (R116). -/
def fieldPos (c : W32) : Nat := (c.extractLsb' 0 5).toNat
def fieldLen (c : W32) : Nat := (c.extractLsb' 5 5).toNat + 1
/-- EXT's field: bits above bit 31 read as 0 (R116). -/
def fieldOf (a c : W32) : W32 := BitVec.ofNat 32 (a.toNat / 2 ^ fieldPos c % 2 ^ fieldLen c)
/-- A field of n bits sign-extended from its top bit (R116). -/
def signField (n : Nat) (f : W32) : W32 := if f.getLsbD (n - 1) then f - BitVec.ofNat 32 (2 ^ n) else f
/-- INS's result: positions above bit 31 are dropped (R116). -/
def insField (a b c : W32) : W32 :=
  let m : W32 := BitVec.ofNat 32 ((2 ^ fieldLen c - 1) * 2 ^ fieldPos c)
  (a &&& ~~~m) ||| ((b <<< fieldPos c) &&& m)
/-- Leading zero bits of a word (R115). -/
def leadZeros (c : W32) : Nat := if c = 0 then 32 else 31 - c.toNat.log2
/-- Set bits of a word (R115). -/
def setBits (c : W32) : Nat := ((List.range 32).filter fun i => c.getLsbD i).length
/-- The low 32 bits of a 64-bit value, sign-extended (R117). -/
def low32 (c : W64) : W64 := (c.setWidth 32).signExtend 64

/-- A scalar operation fired with t: the unit's x and y, and the result at its port (R115). SAT is raised in the phase
that holds the delivery (R114). -/
def saFire (lat : Nat) (f : W32 → W32 → W32 → W32 × Flags) (t : TVal) (s : State) : State :=
  let r := f ((s.opnd 0x100).val.setWidth 32) ((s.opnd 0x101).val.setWidth 32) (t.val.setWidth 32)
  s.pushResult (0x90 + s.frame.cur.slot) lat (plain r.1.toNat) r.2
/-- A scalar trigger in port form. -/
def saRun (lat : Nat) (f : W32 → W32 → W32 → W32 × Flags) (w : Slot) (s : State) : Host.Outcome State Fault Refusal :=
  .next (s.trigger w (saFire lat f))
/-- A scalar trigger in extended form. -/
def saRunExt (lat : Nat) (f : W32 → W32 → W32 → W32 × Flags) (w : Slot) (s : State) :
    Host.Outcome State Fault Refusal :=
  .next (s.triggerExt w 0x100 0x101 (saFire lat f))

/-- An address operation fired with t: AU's x and y, and the result at AU.q one sc later (R117). -/
def auFire (f : W64 → W64 → W64 → W64) (t : TVal) (s : State) : State :=
  s.pushResult 0x92 1
    (plain (f ((s.opnd 0x102).val.setWidth 64) ((s.opnd 0x103).val.setWidth 64) (t.val.setWidth 64)).toNat) 0
/-- An address trigger in port form. -/
def auRun (f : W64 → W64 → W64 → W64) (w : Slot) (s : State) : Host.Outcome State Fault Refusal :=
  .next (s.trigger w (auFire f))
/-- An address trigger in extended form. -/
def auRunExt (f : W64 → W64 → W64 → W64) (w : Slot) (s : State) : Host.Outcome State Fault Refusal :=
  .next (s.triggerExt w 0x102 0x103 (auFire f))

/-- ADD: (a + c) mod 2^32 (R115). -/
def saAdd (a _b c : W32) : W32 × Flags := (a + c, 0)
def execAdd (w : Slot) (s : State) : Host.Outcome State Fault Refusal := saRun 1 saAdd w s
def execAddExt (w : Slot) (s : State) : Host.Outcome State Fault Refusal := saRunExt 1 saAdd w s

/-- SUB: (a - c) mod 2^32 (R115). -/
def saSub (a _b c : W32) : W32 × Flags := (a - c, 0)
def execSub (w : Slot) (s : State) : Host.Outcome State Fault Refusal := saRun 1 saSub w s
def execSubExt (w : Slot) (s : State) : Host.Outcome State Fault Refusal := saRunExt 1 saSub w s

/-- ADDS: sgn(a) + sgn(c), clamped once; SAT if clamped (R115). -/
def saAddS (a _b c : W32) : W32 × Flags := satW32 (a.toInt + c.toInt)
def execAddS (w : Slot) (s : State) : Host.Outcome State Fault Refusal := saRun 1 saAddS w s
def execAddSExt (w : Slot) (s : State) : Host.Outcome State Fault Refusal := saRunExt 1 saAddS w s

/-- SUBS: sgn(a) - sgn(c), clamped once; SAT if clamped (R115). -/
def saSubS (a _b c : W32) : W32 × Flags := satW32 (a.toInt - c.toInt)
def execSubS (w : Slot) (s : State) : Host.Outcome State Fault Refusal := saRun 1 saSubS w s
def execSubSExt (w : Slot) (s : State) : Host.Outcome State Fault Refusal := saRunExt 1 saSubS w s

/-- AND: a and c (R115). -/
def saAnd (a _b c : W32) : W32 × Flags := (a &&& c, 0)
def execAnd (w : Slot) (s : State) : Host.Outcome State Fault Refusal := saRun 1 saAnd w s
def execAndExt (w : Slot) (s : State) : Host.Outcome State Fault Refusal := saRunExt 1 saAnd w s

/-- OR: a or c (R115). -/
def saOr (a _b c : W32) : W32 × Flags := (a ||| c, 0)
def execOr (w : Slot) (s : State) : Host.Outcome State Fault Refusal := saRun 1 saOr w s
def execOrExt (w : Slot) (s : State) : Host.Outcome State Fault Refusal := saRunExt 1 saOr w s

/-- XOR: a xor c (R115). -/
def saXor (a _b c : W32) : W32 × Flags := (a ^^^ c, 0)
def execXor (w : Slot) (s : State) : Host.Outcome State Fault Refusal := saRun 1 saXor w s
def execXorExt (w : Slot) (s : State) : Host.Outcome State Fault Refusal := saRunExt 1 saXor w s

/-- ANDN: a and not c (R115). -/
def saAndn (a _b c : W32) : W32 × Flags := (a &&& ~~~c, 0)
def execAndn (w : Slot) (s : State) : Host.Outcome State Fault Refusal := saRun 1 saAndn w s
def execAndnExt (w : Slot) (s : State) : Host.Outcome State Fault Refusal := saRunExt 1 saAndn w s

/-- SHL: a shifted left by c[4:0] (R115). -/
def saShl (a _b c : W32) : W32 × Flags := (a <<< (shamt c), 0)
def execShl (w : Slot) (s : State) : Host.Outcome State Fault Refusal := saRun 1 saShl w s
def execShlExt (w : Slot) (s : State) : Host.Outcome State Fault Refusal := saRunExt 1 saShl w s

/-- SHR: uns(a) shifted right by c[4:0] (R115). -/
def saShr (a _b c : W32) : W32 × Flags := (a >>> (shamt c), 0)
def execShr (w : Slot) (s : State) : Host.Outcome State Fault Refusal := saRun 1 saShr w s
def execShrExt (w : Slot) (s : State) : Host.Outcome State Fault Refusal := saRunExt 1 saShr w s

/-- SAR: sgn(a) shifted right by c[4:0] (R115). -/
def saSar (a _b c : W32) : W32 × Flags := (a.sshiftRight (shamt c), 0)
def execSar (w : Slot) (s : State) : Host.Outcome State Fault Refusal := saRun 1 saSar w s
def execSarExt (w : Slot) (s : State) : Host.Outcome State Fault Refusal := saRunExt 1 saSar w s

/-- ROR: a rotated right by c[4:0] (R115). -/
def saRor (a _b c : W32) : W32 × Flags := (a.rotateRight (shamt c), 0)
def execRor (w : Slot) (s : State) : Host.Outcome State Fault Refusal := saRun 1 saRor w s
def execRorExt (w : Slot) (s : State) : Host.Outcome State Fault Refusal := saRunExt 1 saRor w s

/-- MIN: the smaller of sgn(a), sgn(c) (R115). -/
def saMin (a _b c : W32) : W32 × Flags := (if c.slt a then c else a, 0)
def execMin (w : Slot) (s : State) : Host.Outcome State Fault Refusal := saRun 1 saMin w s
def execMinExt (w : Slot) (s : State) : Host.Outcome State Fault Refusal := saRunExt 1 saMin w s

/-- MAX: the larger of sgn(a), sgn(c) (R115). -/
def saMax (a _b c : W32) : W32 × Flags := (if a.slt c then c else a, 0)
def execMax (w : Slot) (s : State) : Host.Outcome State Fault Refusal := saRun 1 saMax w s
def execMaxExt (w : Slot) (s : State) : Host.Outcome State Fault Refusal := saRunExt 1 saMax w s

/-- MINU: the smaller of uns(a), uns(c) (R115). -/
def saMinu (a _b c : W32) : W32 × Flags := (if c.ult a then c else a, 0)
def execMinu (w : Slot) (s : State) : Host.Outcome State Fault Refusal := saRun 1 saMinu w s
def execMinuExt (w : Slot) (s : State) : Host.Outcome State Fault Refusal := saRunExt 1 saMinu w s

/-- MAXU: the larger of uns(a), uns(c) (R115). -/
def saMaxu (a _b c : W32) : W32 × Flags := (if a.ult c then c else a, 0)
def execMaxu (w : Slot) (s : State) : Host.Outcome State Fault Refusal := saRun 1 saMaxu w s
def execMaxuExt (w : Slot) (s : State) : Host.Outcome State Fault Refusal := saRunExt 1 saMaxu w s

/-- CMPEQ: 1 if a = c, else 0 (R115). -/
def saCmpeq (a _b c : W32) : W32 × Flags := (bit32 (a == c), 0)
def execCmpeq (w : Slot) (s : State) : Host.Outcome State Fault Refusal := saRun 1 saCmpeq w s
def execCmpeqExt (w : Slot) (s : State) : Host.Outcome State Fault Refusal := saRunExt 1 saCmpeq w s

/-- CMPNE: 1 if a is not c, else 0 (R115). -/
def saCmpne (a _b c : W32) : W32 × Flags := (bit32 (a != c), 0)
def execCmpne (w : Slot) (s : State) : Host.Outcome State Fault Refusal := saRun 1 saCmpne w s
def execCmpneExt (w : Slot) (s : State) : Host.Outcome State Fault Refusal := saRunExt 1 saCmpne w s

/-- CMPLT: 1 if sgn(a) < sgn(c), else 0 (R115). -/
def saCmplt (a _b c : W32) : W32 × Flags := (bit32 (a.slt c), 0)
def execCmplt (w : Slot) (s : State) : Host.Outcome State Fault Refusal := saRun 1 saCmplt w s
def execCmpltExt (w : Slot) (s : State) : Host.Outcome State Fault Refusal := saRunExt 1 saCmplt w s

/-- CMPLE: 1 if sgn(a) <= sgn(c), else 0 (R115). -/
def saCmple (a _b c : W32) : W32 × Flags := (bit32 (a.sle c), 0)
def execCmple (w : Slot) (s : State) : Host.Outcome State Fault Refusal := saRun 1 saCmple w s
def execCmpleExt (w : Slot) (s : State) : Host.Outcome State Fault Refusal := saRunExt 1 saCmple w s

/-- CMPLTU: 1 if uns(a) < uns(c), else 0 (R115). -/
def saCmpltu (a _b c : W32) : W32 × Flags := (bit32 (a.ult c), 0)
def execCmpltu (w : Slot) (s : State) : Host.Outcome State Fault Refusal := saRun 1 saCmpltu w s
def execCmpltuExt (w : Slot) (s : State) : Host.Outcome State Fault Refusal := saRunExt 1 saCmpltu w s

/-- CMPLEU: 1 if uns(a) <= uns(c), else 0 (R115). -/
def saCmpleu (a _b c : W32) : W32 × Flags := (bit32 (a.ule c), 0)
def execCmpleu (w : Slot) (s : State) : Host.Outcome State Fault Refusal := saRun 1 saCmpleu w s
def execCmpleuExt (w : Slot) (s : State) : Host.Outcome State Fault Refusal := saRunExt 1 saCmpleu w s

/-- SEL: a if c[0] = 1, else b (R115). -/
def saSel (a b c : W32) : W32 × Flags := (if c.getLsbD 0 then a else b, 0)
def execSel (w : Slot) (s : State) : Host.Outcome State Fault Refusal := saRun 1 saSel w s
def execSelExt (w : Slot) (s : State) : Host.Outcome State Fault Refusal := saRunExt 1 saSel w s

/-- EXT: the field of a that c names, zero-extended (R116) (R115). -/
def saExt (a _b c : W32) : W32 × Flags := (fieldOf a c, 0)
def execExt (w : Slot) (s : State) : Host.Outcome State Fault Refusal := saRun 1 saExt w s
def execExtExt (w : Slot) (s : State) : Host.Outcome State Fault Refusal := saRunExt 1 saExt w s

/-- EXTS: the field of a that c names, sign-extended (R116) (R115). -/
def saExts (a _b c : W32) : W32 × Flags := (signField (fieldLen c) (fieldOf a c), 0)
def execExts (w : Slot) (s : State) : Host.Outcome State Fault Refusal := saRun 1 saExts w s
def execExtsExt (w : Slot) (s : State) : Host.Outcome State Fault Refusal := saRunExt 1 saExts w s

/-- INS: a with the field that c names replaced from b (R116) (R115). -/
def saIns (a b c : W32) : W32 × Flags := (insField a b c, 0)
def execIns (w : Slot) (s : State) : Host.Outcome State Fault Refusal := saRun 1 saIns w s
def execInsExt (w : Slot) (s : State) : Host.Outcome State Fault Refusal := saRunExt 1 saIns w s

/-- CLZ: leading zero bits of c (R115). -/
def saClz (_a _b c : W32) : W32 × Flags := (BitVec.ofNat 32 (leadZeros c), 0)
def execClz (w : Slot) (s : State) : Host.Outcome State Fault Refusal := saRun 1 saClz w s
def execClzExt (w : Slot) (s : State) : Host.Outcome State Fault Refusal := saRunExt 1 saClz w s

/-- POPC: set bits of c (R115). -/
def saPopc (_a _b c : W32) : W32 × Flags := (BitVec.ofNat 32 (setBits c), 0)
def execPopc (w : Slot) (s : State) : Host.Outcome State Fault Refusal := saRun 1 saPopc w s
def execPopcExt (w : Slot) (s : State) : Host.Outcome State Fault Refusal := saRunExt 1 saPopc w s

/-- ADDC: (uns(a) + uns(b) + c[0]) mod 2^32 (R115). -/
def saAddc (a b c : W32) : W32 × Flags := (a + b + bit32 (c.getLsbD 0), 0)
def execAddc (w : Slot) (s : State) : Host.Outcome State Fault Refusal := saRun 1 saAddc w s
def execAddcExt (w : Slot) (s : State) : Host.Outcome State Fault Refusal := saRunExt 1 saAddc w s

/-- CARRY: the carry out of uns(a) + uns(b) + c[0] (R115). -/
def saCarry (a b c : W32) : W32 × Flags := (BitVec.ofNat 32 ((a.toNat + b.toNat + (c.getLsbD 0).toNat) / 2 ^ 32), 0)
def execCarry (w : Slot) (s : State) : Host.Outcome State Fault Refusal := saRun 1 saCarry w s
def execCarryExt (w : Slot) (s : State) : Host.Outcome State Fault Refusal := saRunExt 1 saCarry w s

/-- SUBB: (uns(a) - uns(b) - c[0]) mod 2^32 (R115). -/
def saSubb (a b c : W32) : W32 × Flags := (a - b - bit32 (c.getLsbD 0), 0)
def execSubb (w : Slot) (s : State) : Host.Outcome State Fault Refusal := saRun 1 saSubb w s
def execSubbExt (w : Slot) (s : State) : Host.Outcome State Fault Refusal := saRunExt 1 saSubb w s

/-- BORROW: 1 if uns(a) < uns(b) + c[0], else 0 (R115). -/
def saBorrow (a b c : W32) : W32 × Flags := (bit32 (decide (a.toNat < b.toNat + (c.getLsbD 0).toNat)), 0)
def execBorrow (w : Slot) (s : State) : Host.Outcome State Fault Refusal := saRun 1 saBorrow w s
def execBorrowExt (w : Slot) (s : State) : Host.Outcome State Fault Refusal := saRunExt 1 saBorrow w s

/-- MULLO: (a * c) mod 2^32 (R115). -/
def saMullo (a _b c : W32) : W32 × Flags := (a * c, 0)
def execMullo (w : Slot) (s : State) : Host.Outcome State Fault Refusal := saRun 3 saMullo w s
def execMulloExt (w : Slot) (s : State) : Host.Outcome State Fault Refusal := saRunExt 3 saMullo w s

/-- MULHI: the high word of sgn(a) * sgn(c) (R115). -/
def saMulhi (a _b c : W32) : W32 × Flags := (BitVec.ofInt 32 (a.toInt * c.toInt / 2 ^ 32), 0)
def execMulhi (w : Slot) (s : State) : Host.Outcome State Fault Refusal := saRun 3 saMulhi w s
def execMulhiExt (w : Slot) (s : State) : Host.Outcome State Fault Refusal := saRunExt 3 saMulhi w s

/-- MULHIU: the high word of uns(a) * uns(c) (R115). -/
def saMulhiu (a _b c : W32) : W32 × Flags := (BitVec.ofNat 32 (a.toNat * c.toNat / 2 ^ 32), 0)
def execMulhiu (w : Slot) (s : State) : Host.Outcome State Fault Refusal := saRun 3 saMulhiu w s
def execMulhiuExt (w : Slot) (s : State) : Host.Outcome State Fault Refusal := saRunExt 3 saMulhiu w s

/-- AADD: (a + c) mod 2^64 (R117). -/
def auAadd (a _b c : W64) : W64 :=
  a + c
def execAadd (w : Slot) (s : State) : Host.Outcome State Fault Refusal := auRun auAadd w s
def execAaddExt (w : Slot) (s : State) : Host.Outcome State Fault Refusal := auRunExt auAadd w s

/-- ASUB: (a - c) mod 2^64 (R117). -/
def auAsub (a _b c : W64) : W64 :=
  a - c
def execAsub (w : Slot) (s : State) : Host.Outcome State Fault Refusal := auRun auAsub w s
def execAsubExt (w : Slot) (s : State) : Host.Outcome State Fault Refusal := auRunExt auAsub w s

/-- AIDX: (a + sgn(c[31:0]) * 2^b[3:0]) mod 2^64 (R117). -/
def auAidx (a b c : W64) : W64 :=
  a + (low32 c <<< (b.extractLsb' 0 4).toNat)
def execAidx (w : Slot) (s : State) : Host.Outcome State Fault Refusal := auRun auAidx w s
def execAidxExt (w : Slot) (s : State) : Host.Outcome State Fault Refusal := auRunExt auAidx w s

/-- ACIRC: a + sgn(c[31:0]), modulo uns(b) where b is not 0 (R117). -/
def auAcirc (a b c : W64) : W64 :=
  if b = 0 then a + low32 c
  else BitVec.ofInt 64 ((Int.ofNat a.toNat + (c.setWidth 32).toInt) % Int.ofNat b.toNat)
def execAcirc (w : Slot) (s : State) : Host.Outcome State Fault Refusal := auRun auAcirc w s
def execAcircExt (w : Slot) (s : State) : Host.Outcome State Fault Refusal := auRunExt auAcirc w s

/-- AAND: a and c (R117). -/
def auAand (a _b c : W64) : W64 :=
  a &&& c
def execAand (w : Slot) (s : State) : Host.Outcome State Fault Refusal := auRun auAand w s
def execAandExt (w : Slot) (s : State) : Host.Outcome State Fault Refusal := auRunExt auAand w s

/-- AOR: a or c (R117). -/
def auAor (a _b c : W64) : W64 :=
  a ||| c
def execAor (w : Slot) (s : State) : Host.Outcome State Fault Refusal := auRun auAor w s
def execAorExt (w : Slot) (s : State) : Host.Outcome State Fault Refusal := auRunExt auAor w s

/-- ASHL: a shifted left by c[5:0] (R117). -/
def auAshl (a _b c : W64) : W64 :=
  a <<< (c.extractLsb' 0 6).toNat
def execAshl (w : Slot) (s : State) : Host.Outcome State Fault Refusal := auRun auAshl w s
def execAshlExt (w : Slot) (s : State) : Host.Outcome State Fault Refusal := auRunExt auAshl w s

/-- ASHR: uns(a) shifted right by c[5:0] (R117). -/
def auAshr (a _b c : W64) : W64 :=
  a >>> (c.extractLsb' 0 6).toNat
def execAshr (w : Slot) (s : State) : Host.Outcome State Fault Refusal := auRun auAshr w s
def execAshrExt (w : Slot) (s : State) : Host.Outcome State Fault Refusal := auRunExt auAshr w s

/-- ATOP: c[63] (R117). -/
def auAtop (_a _b c : W64) : W64 :=
  (BitVec.ofBool (c.getLsbD 63)).zeroExtend 64
def execAtop (w : Slot) (s : State) : Host.Outcome State Fault Refusal := auRun auAtop w s
def execAtopExt (w : Slot) (s : State) : Host.Outcome State Fault Refusal := auRunExt auAtop w s

/-- ACMPEQ: 1 if a = c, else 0 (R117). -/
def auAcmpeq (a _b c : W64) : W64 :=
  (BitVec.ofBool (a == c)).zeroExtend 64
def execAcmpeq (w : Slot) (s : State) : Host.Outcome State Fault Refusal := auRun auAcmpeq w s
def execAcmpeqExt (w : Slot) (s : State) : Host.Outcome State Fault Refusal := auRunExt auAcmpeq w s

/-- ACMPLTU: 1 if uns(a) < uns(c), else 0 (R117). -/
def auAcmpltu (a _b c : W64) : W64 :=
  (BitVec.ofBool (a.ult c)).zeroExtend 64
def execAcmpltu (w : Slot) (s : State) : Host.Outcome State Fault Refusal := auRun auAcmpltu w s
def execAcmpltuExt (w : Slot) (s : State) : Host.Outcome State Fault Refusal := auRunExt auAcmpltu w s

/-- AJOIN: a[31:0] with c[31:0] above it (R117). -/
def auAjoin (a _b c : W64) : W64 :=
  c.setWidth 32 ++ a.setWidth 32
def execAjoin (w : Slot) (s : State) : Host.Outcome State Fault Refusal := auRun auAjoin w s
def execAjoinExt (w : Slot) (s : State) : Host.Outcome State Fault Refusal := auRunExt auAjoin w s

/-- PNZ pk: hid(pk) := 1 if any bit of the source is set, tested at the source's own width (R118). The handler has p1 to
p3 only. -/
def execPnz (w : Slot) (k : BitVec 4) (s : State) : Host.Outcome State Fault Refusal :=
  .next (if s.inHandler && decide (3 < k.toNat) then s.raiseSlot Err.illegalBundle
    else s.trigger w fun t s => s.modRegs fun r => r.landP k.toNat (t.val != 0))

end Sys2Proof.Machine
end

