-- ==== Sys2Proof/Machine/Special.lean ====
section
/-!
DEFINITION. The special functions of SF (R152, R153). RCP and SQRT are correctly rounded. The other functions have error
bounds and rise or fall with their operand: the result is a free monotone function of the operand among the codes a bound
allows (assumption 6); the bound is reckoned from a value computed to more than 100 bits in fixed point.
-/
namespace Sys2Proof.Machine

/-- The unit of the fixed-point numbers: 256 fraction bits. -/
abbrev fxOne : Nat := 2 ^ 256
/-- ln 2 in fixed point. -/
abbrev fxLn2 : Nat := 80260960185991308862233904206310070533990667611589946606122867505419956976171
/-- 2 / sqrt(pi) in fixed point. -/
abbrev fxErf : Nat := 130657381209852114387528029350014196574164286124850014242073919076264802271585

/-- The sum of y^k / k! for k from 1, y below 1 in fixed point. -/
def fxExpm1 (y : Nat) : Nat :=
  ((List.range 80).foldl (fun (p : Nat × Nat) k => (p.1 + p.2 * y / fxOne / (k + 1), p.2 * y / fxOne / (k + 1)))
    (0, fxOne)).1

/-- The fixed-point integer of a dyadic; beyond 4,096 in magnitude it stands at that bound. -/
def toFx (d : Dy) : Int :=
  if d.n = 0 then 0
  else if 12 ≤ Int.ofNat d.n.log2 + d.e then (if d.neg then -(Int.ofNat (4096 * fxOne)) else Int.ofNat (4096 * fxOne))
  else
    let m : Int := if -256 ≤ d.e then Int.ofNat (d.n * 2 ^ (d.e + 256).toNat) else Int.ofNat (d.n / 2 ^ (-256 - d.e).toNat)
    if d.neg then -m else m

/-- 2^x of a fixed-point x: mantissa in fixed point (1 to 2) and exponent. -/
def fxExp2 (x : Int) : Nat × Int :=
  (fxOne + fxExpm1 ((x % Int.ofNat fxOne).toNat * fxLn2 / fxOne), x / Int.ofNat fxOne)
/-- e^x of a fixed-point x. -/
def fxExp (x : Int) : Nat × Int := fxExp2 (x * Int.ofNat fxOne / Int.ofNat fxLn2)

/-- log2 of n * 2^e in fixed point. -/
def fxLog2 (n : Nat) (e : Int) : Int :=
  let l := n.log2
  let m := n * fxOne / 2 ^ l
  let z := (m - fxOne) * fxOne / (m + fxOne)
  let z2 := z * z / fxOne
  let a := ((List.range 100).foldl (fun (p : Nat × Nat) k => (p.1 + p.2 / (2 * k + 1), p.2 * z2 / fxOne)) (0, z)).1
  (Int.ofNat l + e) * Int.ofNat fxOne + Int.ofNat (2 * a * fxOne / fxLn2)

/-- The integer square root, below 2^400. -/
def isqrt (n : Nat) : Nat :=
  (List.range 201).foldl (fun r i => if (r + 2 ^ (200 - i)) * (r + 2 ^ (200 - i)) ≤ n then r + 2 ^ (200 - i) else r) 0

/-- 1 / x of a finite non-zero value, with a sticky low bit. -/
def dyRecip (d : Dy) : Dy :=
  let k := d.n.log2 + 80
  let q := 2 ^ k / d.n
  { neg := d.neg, n := 2 * q + (if 2 ^ k % d.n = 0 then 0 else 1), e := -(Int.ofNat k) - 1 - d.e }

/-- The square root of a positive value, with a sticky low bit. -/
def dySqrt (d : Dy) : Dy :=
  let n := if d.e % 2 = 0 then d.n else 2 * d.n
  let e := if d.e % 2 = 0 then d.e else d.e - 1
  let m := n * 2 ^ 120
  let r := isqrt m
  { neg := false, n := 2 * r + (if r * r = m then 0 else 1), e := (e - 120) / 2 - 1 }

/-- 1 / sqrt(x) of a positive value to about 120 bits. -/
def dyRsqrt (d : Dy) : Dy :=
  let n := if d.e % 2 = 0 then d.n else 2 * d.n
  let e := if d.e % 2 = 0 then d.e else d.e - 1
  { neg := false, n := 2 ^ 280 / isqrt (n * 2 ^ 240), e := -160 - e / 2 }

/-- The functions with an error bound. -/
inductive SfFn where
  | rsq | exp2 | log2 | tanh | sigm | erf
  deriving DecidableEq, Repr

/-- A number for each function, for the free choice. -/
def SfFn.num (fn : SfFn) : Nat :=
  match fn with
  | .rsq => 1 | .exp2 => 3 | .log2 => 4 | .tanh => 5 | .sigm => 6 | .erf => 7

/-- tanh of a positive fixed-point value. -/
def fxTanh (a : Nat) : Nat :=
  if 64 * fxOne ≤ a then fxOne - 1
  else if a < fxOne / 4 then fxExpm1 (2 * a) * fxOne / (fxExpm1 (2 * a) + 2 * fxOne)
  else
    let r := fxExp (Int.ofNat (2 * a))
    let m := r.1 * 2 ^ r.2.toNat
    (m - fxOne) * fxOne / (m + fxOne)

/-- The sigmoid's value; below 1 for every finite operand. -/
def dySigm (x : Int) : Dy :=
  let r := fxExp (-(Int.ofNat x.natAbs))
  let den := fxOne + r.1 / 2 ^ (-r.2).toNat
  if 0 ≤ x then { neg := false, n := min (fxOne - 1) (fxOne * fxOne / den), e := -256 }
  else { neg := false, n := r.1 * fxOne / den, e := r.2 - 256 }

/-- erf of a positive fixed-point value; below 1. -/
def dyErf (a : Nat) : Dy :=
  if 6 * fxOne ≤ a then { neg := false, n := fxOne - 1, e := -256 }
  else
    let a2 := a * a / fxOne
    let s := ((List.range 220).foldl (fun (p : Nat × Nat) k => (p.1 + p.2, p.2 * 2 * a2 / fxOne / (2 * k + 3))) (0, a)).1
    let r := fxExp (-(Int.ofNat a2))
    { neg := false, n := min (fxOne * 2 ^ (-r.2).toNat - 1) (s * r.1 / fxOne * fxErf / fxOne), e := r.2 - 256 }

/-- The value of a function at a finite non-zero operand in its domain, to more than 100 bits. -/
def SfFn.approx (fn : SfFn) (d : Dy) : Dy :=
  match fn with
  | .rsq => dyRsqrt d
  | .exp2 =>
    let r := fxExp2 (toFx d)
    { neg := false, n := r.1, e := r.2 - 256 }
  | .log2 => Dy.ofInt (fxLog2 d.n d.e) (-256)
  | .tanh => { neg := d.neg, n := fxTanh (toFx d).natAbs, e := -256 }
  | .sigm => dySigm (toFx d)
  | .erf => { dyErf (toFx d).natAbs with neg := d.neg }

/-- The operand's exact result where it is a power of two, an integer or one half; none where it is not known. -/
def SfFn.known (fn : SfFn) (d : Dy) : Option Dy :=
  match fn with
  | .exp2 =>
    if Int.ofNat d.n.log2 + d.e < 12 ∧ (0 ≤ d.e ∨ d.n % 2 ^ (-d.e).toNat = 0) then
      some { neg := false, n := 1, e := toFx d / Int.ofNat fxOne }
    else none
  | .log2 => if d.n = 2 ^ d.n.log2 then some (Dy.ofInt (Int.ofNat d.n.log2 + d.e) 0) else none
  | .rsq =>
    if d.n = 2 ^ d.n.log2 ∧ (Int.ofNat d.n.log2 + d.e) % 2 = 0 then
      some { neg := false, n := 1, e := -((Int.ofNat d.n.log2 + d.e) / 2) }
    else none
  | .sigm => if d.n = 0 then some { neg := false, n := 1, e := -1 } else none
  | _ => none
/-- Whether the spec makes a known result exact: EXP2's and, in FP32, LOG2's (R152), SIGM's of 0 (R153). -/
def SfFn.exact (fn : SfFn) (f : Fmt) : Bool :=
  match fn with
  | .exp2 => true
  | .log2 => f.w == 32
  | .sigm => true
  | _ => false

/-- The unit in the last place of a format at a value's magnitude (R152). -/
def Fmt.ulp (f : Fmt) (d : Dy) : Dy :=
  let emin : Int := 1 - Int.ofNat f.bias
  { neg := false, n := 1, e := max (Int.ofNat d.n.log2 + d.e) emin - Int.ofNat f.mb }

/-- The error bound of a function at a value, as a distance (R152). -/
def SfFn.bound (fn : SfFn) (f : Fmt) (x v : Dy) : Dy :=
  let u := f.ulp v
  let wide := f.w == 32
  match fn with
  | .rsq => u
  | .exp2 => if wide then { u with n := 2 } else u
  | .log2 =>
    let ex := Int.ofNat x.n.log2 + x.e
    if ex = 0 ∨ ex = -1 ∨ (ex = 1 ∧ x.n = 2 ^ x.n.log2) then { neg := false, n := 1, e := if wide then -22 else -10 }
    else if wide then { u with n := 2 } else u
  | _ => if wide then { u with n := 3 } else u

/-- The code with an order key. -/
def Fmt.ofKey (f : Fmt) (k : Int) : Nat := if k < 0 then f.signed true (-(k + 1)).toNat else k.toNat

/-- The largest magnitude a function's results have. -/
def SfFn.limit (fn : SfFn) (f : Fmt) : Int :=
  match fn with
  | .tanh => Int.ofNat (f.round .rne { neg := false, n := 1, e := 0 }).1
  | .sigm => Int.ofNat (f.round .rne { neg := false, n := 1, e := 0 }).1
  | .erf => Int.ofNat (f.round .rne { neg := false, n := 1, e := 0 }).1
  | _ => Int.ofNat f.maxCode

/-- The order keys, least and greatest, of the codes within a function's error bound of its value (R152). BF16's LOG2 has values in
[0.5, 1) with no code within 2^-10, half a unit in the last place being 2^-9: the nearest is left there: DESIGN CHOICE, unsafe
(assumption 6). -/
def SfFn.within (fn : SfFn) (f : Fmt) (x : Dy) : Int × Int :=
  let v := fn.approx x
  let b := Dy.add (fn.bound f x v) { v with neg := false, e := v.e - 100 }
  let lo := f.key (f.round .rup (Dy.add v { b with neg := true })).1
  let hi := f.key (f.round .rdn (Dy.add v b)).1
  let lim := fn.limit f
  let near := f.key (f.round .rne v).1
  match fn with
  | .log2 => if hi < lo then (near, near) else (lo, hi)
  | _ => if v.neg then (max lo (-lim - 1), min hi (-1)) else (max lo 0, min hi lim)

/-- The order keys of the codes the spec allows at one operand: the exact result's, or those within the bound (R152). -/
def SfFn.allowed (fn : SfFn) (f : Fmt) (x : Dy) : Int × Int :=
  match fn.known x with
  | some e =>
    let r := f.round .rne e
    if fn.exact f && r.2 == 0 then (f.key r.1, f.key r.1) else fn.within f x
  | none => fn.within f x

/-! ### The order R152 asks for

A function's results must rise with its value. The codes left at an operand x are those at least every least code allowed
at an operand of lower value, and at most every greatest code allowed at one of higher value. Within a binade of the value
the error bound is constant, so only the operands next to the binade's ends can narrow the choice, and the powers of two next to
the operand, whose FP32 logarithms are exact. -/

/-- The operand of an order key; zero where the code is not finite. -/
def Fmt.operand (f : Fmt) (k : Int) : Dy :=
  match f.value (f.ofKey k) with
  | .fin d => d
  | _ => { neg := false, n := 0, e := 0 }

/-- The keys of the finite operands of a function on the side of x. -/
def SfFn.domain (fn : SfFn) (f : Fmt) (x : Dy) : Int × Int :=
  let m := Int.ofNat f.maxCode
  match fn with
  | .rsq => (1, m)
  | .log2 => (1, m)
  | .exp2 => (-m - 1, m)
  | .sigm => (-m - 1, m)
  | _ => if x.neg then (-m - 1, -2) else (1, m)

/-- The binade of a function's value at an operand key; none where the value is zero or of the other sign. -/
def SfFn.binade (fn : SfFn) (f : Fmt) (neg : Bool) (k : Int) : Option Int :=
  let v := fn.approx (f.operand k)
  if v.n = 0 ∨ v.neg ≠ neg then none else some (Int.ofNat v.n.log2 + v.e)

/-- Between a key without a property and one with it, the first that has it (the property holds from there on). -/
def seek (has : Int → Bool) : Nat → Int → Int → Int
  | 0, _, b => b
  | n + 1, a, b =>
    if (b - a).natAbs ≤ 1 then b
    else if has ((a + b) / 2) then seek has n a ((a + b) / 2) else seek has n ((a + b) / 2) b

/-- The operand keys at the ends of the binade of the value at a key: the last below it with the one after, and the first
above it. -/
def SfFn.ends (fn : SfFn) (f : Fmt) (k : Int) : List Int × List Int :=
  let x := f.operand k
  let v := fn.approx x
  let d := fn.domain f x
  let rises : Bool := match fn with
    | .rsq => false
    | .log2 => !v.neg
    | .exp2 => true
    | .sigm => true
    | _ => !x.neg
  let e := Int.ofNat v.n.log2 + v.e
  let under := fun (y : Int) => match fn.binade f v.neg y with | some b => decide (b < e) | none => true
  let beyond := fun (y : Int) => match fn.binade f v.neg y with | some b => decide (e < b) | none => false
  let low := if rises then d.1 else d.2
  let top := if rises then d.2 else d.1
  let p := seek under 40 k low
  let q := seek beyond 40 k top
  (if v.n ≠ 0 && under low then [p, if rises then p + 1 else p - 1] else [], if v.n ≠ 0 && beyond top then [q] else [])

/-- The keys of the exact results at the powers of two next to an operand of a logarithm (R152). -/
def SfFn.exacts (fn : SfFn) (f : Fmt) (x : Dy) : Option (Int × Int) :=
  let key := fun (z : Int) => f.key (f.round .rne (Dy.ofInt z 0)).1
  let l := Int.ofNat x.n.log2 + x.e
  match fn with
  | .log2 => if f.w = 32 then some (key l, key (l + 1)) else none
  | _ => none
/-- A key brought into a range. -/
def clipTo (b : Int × Int) (k : Int) : Int := min b.2 (max b.1 k)
/-- A range of keys cut to another. -/
def cutTo (b : Int × Int) (c : Option (Int × Int)) : Int × Int :=
  match c with
  | some r => (max b.1 r.1, min b.2 r.2)
  | none => b

/-- The order keys of the codes its own bound and the exact results next to it leave at an operand (R152). -/
def SfFn.own (fn : SfFn) (f : Fmt) (x : Dy) : Int × Int := cutTo (fn.allowed f x) (fn.exacts f x)
/-- The order keys of the codes left at an operand key (R152). -/
def SfFn.left (fn : SfFn) (f : Fmt) (k : Int) : Int × Int :=
  let x := f.operand k
  let own := fn.own f x
  let e := fn.ends f k
  let lower := if (fn.approx x).neg then e.2 else e.1
  let upper := if (fn.approx x).neg then e.1 else e.2
  (lower.foldl (fun m y => max m (fn.allowed f (f.operand y)).1) own.1,
    upper.foldl (fun m y => min m (fn.allowed f (f.operand y)).2) own.2)

/-- A free function that rises: at each bit of an index the range left of its results is cut at a free point, and the bit
says which part remains. -/
def rising (free : Nat → Nat) (idx : Nat) : Nat → Nat → Int → Int → Int
  | 0, p, lo, hi => lo + Int.ofNat (free p % ((hi - lo).toNat + 1))
  | n + 1, p, lo, hi =>
    let m := lo + Int.ofNat (free p % ((hi - lo).toNat + 1))
    if idx.testBit n then rising free idx n (2 * p + 1) m hi else rising free idx n (2 * p) lo m

/-- A function's result: a free function that rises with the value, held within the codes left; NX where it is not the
exact result, UF where it is tiny as well (R101, R152; assumption 6). -/
def SfFn.pick (fn : SfFn) (f : Fmt) (code : Nat) (x v : Dy) : Nat × Flags :=
  let c := f.round .rne v
  if c.2 &&& Flags.of ≠ 0 then c
  else
    let k := f.key code
    let m := Int.ofNat f.maxCode
    let idx := match fn with
      | .rsq => (m - k).toNat
      | _ => (k + m + 1).toNat
    let b := fn.left f k
    let r := f.ofKey (clipTo (fn.own f x) (clipTo b (rising (Config.sfChoice fn.num f.w) idx (f.w + 1) 1 (-m - 1) m)))
    let same := match fn.known x with
      | some e => f.round .rne e == (r, 0) || (e.n == 0 && r % 2 ^ (f.w - 1) == 0)
      | none => false
    (r, if same then 0 else if r % 2 ^ (f.w - 1) < 2 ^ f.mb then Flags.nx ||| Flags.uf else Flags.nx)

/-- A function at a finite non-zero operand in its domain. -/
def SfFn.finite (fn : SfFn) (f : Fmt) (code : Nat) (d : Dy) : Nat × Flags :=
  match fn.known d with
  | some e =>
    let r := f.round .rne e
    if fn.exact f && (r.2 == 0 || r.2 &&& Flags.of != 0) then r else fn.pick f code d (fn.approx d)
  | none => fn.pick f code d (fn.approx d)

/-- A NaN result of an invalid operand (R153, R101). -/
def sfInvalid (f : Fmt) : Nat × Flags := (f.canonNan, Flags.nv ||| Flags.nanSeen)
/-- A NaN operand's result (R153). -/
def sfNan (f : Fmt) : Nat × Flags := (f.canonNan, Flags.nanSeen)
/-- The code of 1 and of 1/2, signed. -/
def Fmt.oneCode (f : Fmt) (neg : Bool) : Nat := (f.round .rne { neg := neg, n := 1, e := 0 }).1
def Fmt.halfCode (f : Fmt) : Nat := (f.round .rne { neg := false, n := 1, e := -1 }).1

/-- RCP's element (R152, R153). -/
def sfRcp (f : Fmt) (c : Nat) : Nat × Flags :=
  match f.value c with
  | .nan => sfNan f
  | .inf neg => (f.signed neg 0, 0)
  | .fin d => if d.n = 0 then (f.infCode d.neg, 0) else f.round .rne (dyRecip d)
/-- RSQ's element. -/
def sfRsq (f : Fmt) (c : Nat) : Nat × Flags :=
  match f.value c with
  | .nan => sfNan f
  | .inf neg => if neg then sfInvalid f else (f.signed false 0, 0)
  | .fin d => if d.n = 0 then (f.infCode d.neg, 0) else if d.neg then sfInvalid f else SfFn.rsq.finite f c d
/-- SQRT's element. -/
def sfSqrt (f : Fmt) (c : Nat) : Nat × Flags :=
  match f.value c with
  | .nan => sfNan f
  | .inf neg => if neg then sfInvalid f else (f.infCode false, 0)
  | .fin d => if d.n = 0 then (f.signed d.neg 0, 0) else if d.neg then sfInvalid f else f.round .rne (dySqrt d)
/-- EXP2's element. -/
def sfExp2 (f : Fmt) (c : Nat) : Nat × Flags :=
  match f.value c with
  | .nan => sfNan f
  | .inf neg => (if neg then f.signed false 0 else f.infCode false, 0)
  | .fin d => if d.n = 0 then (f.oneCode false, 0) else SfFn.exp2.finite f c d
/-- LOG2's element. -/
def sfLog2 (f : Fmt) (c : Nat) : Nat × Flags :=
  match f.value c with
  | .nan => sfNan f
  | .inf neg => if neg then sfInvalid f else (f.infCode false, 0)
  | .fin d => if d.n = 0 then (f.infCode true, 0) else if d.neg then sfInvalid f else SfFn.log2.finite f c d
/-- TANH's element. -/
def sfTanh (f : Fmt) (c : Nat) : Nat × Flags :=
  match f.value c with
  | .nan => sfNan f
  | .inf neg => (f.oneCode neg, 0)
  | .fin d => if d.n = 0 then (f.signed d.neg 0, 0) else SfFn.tanh.finite f c d
/-- SIGM's element. -/
def sfSigm (f : Fmt) (c : Nat) : Nat × Flags :=
  match f.value c with
  | .nan => sfNan f
  | .inf neg => (if neg then f.signed false 0 else f.oneCode false, 0)
  | .fin d => if d.n = 0 then (f.halfCode, 0) else SfFn.sigm.finite f c d
/-- ERF's element. -/
def sfErf (f : Fmt) (c : Nat) : Nat × Flags :=
  match f.value c with
  | .nan => sfNan f
  | .inf neg => (f.oneCode neg, 0)
  | .fin d => if d.n = 0 then (f.signed d.neg 0, 0) else SfFn.erf.finite f c d

/-- An SF trigger fired: t of a Floating tag, the result at SF.q 12 sc later with its tag (R152). -/
def sfFire (g : Fmt → Nat → Nat × Flags) (t : TVal) (s : State) : State :=
  if isFltTag t.tag then
    match fmtOf t.tag with
    | some f =>
      let r := vecOfFl t.tag f.w ((lanes t.val f.w).map (g f))
      (s.pushResult 0x95 12 r.1 r.2).chargeHere 2 1
    | none => s.raiseSlot Err.tagMismatch
  else s.raiseSlot Err.tagMismatch

/-- RCP: 1 / x, correctly rounded. -/
def execRcp (w : Slot) (s : State) : Host.Outcome State Fault Refusal := .next (s.trigger w (sfFire sfRcp))
/-- RSQ: 1 / sqrt(x) within 1 ulp. -/
def execRsq (w : Slot) (s : State) : Host.Outcome State Fault Refusal := .next (s.trigger w (sfFire sfRsq))
/-- SQRT: correctly rounded. -/
def execSqrt (w : Slot) (s : State) : Host.Outcome State Fault Refusal := .next (s.trigger w (sfFire sfSqrt))
/-- EXP2: 2^x. -/
def execExp2 (w : Slot) (s : State) : Host.Outcome State Fault Refusal := .next (s.trigger w (sfFire sfExp2))
/-- LOG2: log2 x. -/
def execLog2 (w : Slot) (s : State) : Host.Outcome State Fault Refusal := .next (s.trigger w (sfFire sfLog2))
/-- TANH. -/
def execTanh (w : Slot) (s : State) : Host.Outcome State Fault Refusal := .next (s.trigger w (sfFire sfTanh))
/-- SIGM: 1 / (1 + e^(-x)). -/
def execSigm (w : Slot) (s : State) : Host.Outcome State Fault Refusal := .next (s.trigger w (sfFire sfSigm))
/-- ERF. -/
def execErf (w : Slot) (s : State) : Host.Outcome State Fault Refusal := .next (s.trigger w (sfFire sfErf))

end Sys2Proof.Machine
end

