-- ==== Sys2Proof/Machine/Bundle.lean ====
section
/-!
DEFINITION. The issue of a bundle: its form and legality (R63 to R75, R85, R86, R119, R120), nullified and elided bundles
(R50 to R53), splits (R54 to R56), the performing of its slots (R55, R70, R72), rollback (R60, R61), the checks of C and S
(R68, R304), the next bundle (R65, R123, R125), and operating-point requests (R242).
-/
namespace Sys2Proof.Machine

/-! ## The form of a bundle (R63, R65, R68) -/

/-- A bundle of a packet: header, present slots with their words, long immediates, and the address that follows it. -/
structure Bundle where
  hdr : Header
  slots : List (Nat × Word24)
  li : List Word24
  fall : W64
  deriving DecidableEq, Repr

/-- The bundle at a code address of a packet: header, slot words by rising slot, long immediates (R68). -/
def Packet.bundle (p : Packet) (a : W64) : Bundle :=
  let wi := wiOf a
  let h := decodeHeader (p.word wi)
  { hdr := h, slots := h.slots.zipIdx.map fun x => (x.1, p.word (wi + 1 + x.2)),
    li := (List.range h.imm.toNat).map fun i => p.word (wi + 1 + h.slots.length + i), fall := Packet.after p a }

/-- A header that is not legal (R42, R68, R85). -/
def headerBad (h : Header) : Bool :=
  h.rsv != 0 || h.imm == 3 || ((h.w || h.s) && !h.f) || (h.s && h.imm == 0) || (h.ops != 0 && !h.c)

/-- Where a trigger may stand (R119, R120, R150, R166, R191, R194). -/
def needOf (op : SlotOp) : Need :=
  match op with
  | .call | .callExt | .calli | .calliExt => needCall
  | .ret | .retExt | .loop | .loopExt | .lexit | .lexitExt | .mpcset | .mpcsetExt | .ntreq | .ntreqExt => needUser
  | .trap | .trapExt | .cvtAmax | .cvtAmaxExt => needUser
  | .bar | .barExt | .waitbm | .waitbmExt | .waitwp | .waitwpExt => needBlock
  | .eret | .eretExt => needEret
  | .timerset | .timersetExt | .rdsched | .rdschedExt | .recw | .recwExt | .mpsw | .mpswExt => needHandler
  | .lease | .leaseExt => needAnswer
  | .halt | .haltExt => needHalt
  | .probe | .probeExt | .evac | .evacExt => { handler := true, f := true, wt := true }
  | .mdrain | .mdrainExt => needDrain
  | .mcfg | .mcfgExt | .mcall | .mcallExt | .claim | .claimExt | .release | .releaseExt | .mput | .mputExt => needUser
  | .mget | .mgetExt | .mzero | .mzeroExt | .mlget | .mlgetExt | .lend | .lendExt | .reclaim | .reclaimExt => needUser
  | _ => needBoth

/-- Whether a trigger carries a long immediate of its own (R71). -/
def carriesOf (op : SlotOp) : Bool :=
  match op with
  | .loop | .loopExt | .bar | .barExt | .mcall | .mcallExt => true
  | _ => false
/-- Whether a trigger ID is an extended form (R72, R78). -/
def isExtId (d : BitVec 9) : Bool := decide (0x160 ≤ d.toNat) && decide (d.toNat < 0x1B0)

/-- A present slot that makes its bundle illegal by itself, whatever its guard (R69, R74, R76, R78, R85, R86). -/
def slotBad (handler : Bool) (bind : BitVec 4) (h : Header) (j : Nat) (w : Word24) : Bool :=
  let d := slotDst w
  let v := Slot.ofWord w
  w.getLsbD 0 || (handler && decide (4 ≤ v.gd.g.toNat)) || !srcLegal handler bind j v.src h.imm.toNat ||
    (match slotTarget (Cls.ofSlot j) d with
     | none => true
     | some none => !dstLegal handler bind j d
     | some (some op) => !(needOf op).ok handler h || (handler && op == .pnz && decide (4 ≤ d.toNat % 16)))

/-- The shared units and ports a slot names: AU, SF, AU.x and AU.y as 0 to 3 (R75). Every other unit and port is its
slot's own. -/
def sharedNames (j : Nat) (w : Word24) : List Nat :=
  let d := (slotDst w).toNat
  if j ≤ 1 then
    if 0x150 ≤ d ∧ d < 0x160 then [0] else if 0x1A0 ≤ d ∧ d < 0x1B0 then [0, 2, 3]
    else if d = 0x102 then [2] else if d = 0x103 then [3] else []
  else if (j = 2 ∨ j = 3) ∧ 0x1B0 ≤ d ∧ d < 0x1B8 then [1] else []

/-- The first present slot that makes a bundle illegal: by itself, or by naming a shared unit or port again (R75). -/
def firstBad (handler : Bool) (bind : BitVec 4) (h : Header) : List Nat → List (Nat × Word24) → Option Nat
  | _, [] => none
  | seen, (j, w) :: rest =>
    if slotBad handler bind h j w || (sharedNames j w).any seen.contains then some j
    else firstBad handler bind h (seen ++ sharedNames j w) rest

/-- The detail of an illegal bundle (R85, R320): 7 for the packet or the header, else the slot. -/
def illegalDetail (handler : Bool) (bind : BitVec 4) (p : Packet) (b : Bundle) : Option Nat :=
  if p.extractLsb' 10 6 != 0 || !p.wf || headerBad b.hdr then some 7 else firstBad handler bind b.hdr [] b.slots

/-! ## The slots (R55, R70, R72) -/

/-- A trigger's meaning in the slot at the cursor; the same as exec's of its instruction (Laws). -/
def runOp (op : SlotOp) (d : BitVec 9) (w : Slot) (s : State) : Host.Outcome State Fault Refusal :=
  match op with
  | .br => execBr w s
  | .bri => execBri w s
  | .call => execCall w s
  | .calli => execCalli w s
  | .ret => execRet w.gd s
  | .loop => execLoop w s
  | .lexit => execLexit w s
  | .mpcset => execMpcset w s
  | .ntreq => execNtreq w.gd s
  | .bar => execBar w s
  | .waitbm => execWaitbm w s
  | .waitwp => execWaitwp w s
  | .trap => execTrap w s
  | .eret => execEret w s
  | .timerset => execTimerset w s
  | .rdsched => execRdsched w s
  | .recw => execRecw w s
  | .lease => execLease w s
  | .halt => execHalt w.gd s
  | .brExt => execBrExt w s
  | .briExt => execBriExt w s
  | .callExt => execCallExt w s
  | .calliExt => execCalliExt w s
  | .retExt => execRetExt w s
  | .loopExt => execLoopExt w s
  | .lexitExt => execLexitExt w s
  | .mpcsetExt => execMpcsetExt w s
  | .ntreqExt => execNtreqExt w s
  | .barExt => execBarExt w s
  | .waitbmExt => execWaitbmExt w s
  | .waitwpExt => execWaitwpExt w s
  | .trapExt => execTrapExt w s
  | .eretExt => execEretExt w s
  | .timersetExt => execTimersetExt w s
  | .rdschedExt => execRdschedExt w s
  | .recwExt => execRecwExt w s
  | .leaseExt => execLeaseExt w s
  | .haltExt => execHaltExt w s
  | .add => execAdd w s
  | .sub => execSub w s
  | .addS => execAddS w s
  | .subS => execSubS w s
  | .and => execAnd w s
  | .or => execOr w s
  | .xor => execXor w s
  | .andn => execAndn w s
  | .shl => execShl w s
  | .shr => execShr w s
  | .sar => execSar w s
  | .ror => execRor w s
  | .min => execMin w s
  | .max => execMax w s
  | .minu => execMinu w s
  | .maxu => execMaxu w s
  | .cmpeq => execCmpeq w s
  | .cmpne => execCmpne w s
  | .cmplt => execCmplt w s
  | .cmple => execCmple w s
  | .cmpltu => execCmpltu w s
  | .cmpleu => execCmpleu w s
  | .sel => execSel w s
  | .ext => execExt w s
  | .exts => execExts w s
  | .ins => execIns w s
  | .clz => execClz w s
  | .popc => execPopc w s
  | .addc => execAddc w s
  | .carry => execCarry w s
  | .subb => execSubb w s
  | .borrow => execBorrow w s
  | .mullo => execMullo w s
  | .mulhi => execMulhi w s
  | .mulhiu => execMulhiu w s
  | .addExt => execAddExt w s
  | .subExt => execSubExt w s
  | .addSExt => execAddSExt w s
  | .subSExt => execSubSExt w s
  | .andExt => execAndExt w s
  | .orExt => execOrExt w s
  | .xorExt => execXorExt w s
  | .andnExt => execAndnExt w s
  | .shlExt => execShlExt w s
  | .shrExt => execShrExt w s
  | .sarExt => execSarExt w s
  | .rorExt => execRorExt w s
  | .minExt => execMinExt w s
  | .maxExt => execMaxExt w s
  | .minuExt => execMinuExt w s
  | .maxuExt => execMaxuExt w s
  | .cmpeqExt => execCmpeqExt w s
  | .cmpneExt => execCmpneExt w s
  | .cmpltExt => execCmpltExt w s
  | .cmpleExt => execCmpleExt w s
  | .cmpltuExt => execCmpltuExt w s
  | .cmpleuExt => execCmpleuExt w s
  | .selExt => execSelExt w s
  | .extExt => execExtExt w s
  | .extsExt => execExtsExt w s
  | .insExt => execInsExt w s
  | .clzExt => execClzExt w s
  | .popcExt => execPopcExt w s
  | .addcExt => execAddcExt w s
  | .carryExt => execCarryExt w s
  | .subbExt => execSubbExt w s
  | .borrowExt => execBorrowExt w s
  | .mulloExt => execMulloExt w s
  | .mulhiExt => execMulhiExt w s
  | .mulhiuExt => execMulhiuExt w s
  | .aadd => execAadd w s
  | .asub => execAsub w s
  | .aidx => execAidx w s
  | .acirc => execAcirc w s
  | .aand => execAand w s
  | .aor => execAor w s
  | .ashl => execAshl w s
  | .ashr => execAshr w s
  | .atop => execAtop w s
  | .acmpeq => execAcmpeq w s
  | .acmpltu => execAcmpltu w s
  | .ajoin => execAjoin w s
  | .aaddExt => execAaddExt w s
  | .asubExt => execAsubExt w s
  | .aidxExt => execAidxExt w s
  | .acircExt => execAcircExt w s
  | .aandExt => execAandExt w s
  | .aorExt => execAorExt w s
  | .ashlExt => execAshlExt w s
  | .ashrExt => execAshrExt w s
  | .atopExt => execAtopExt w s
  | .acmpeqExt => execAcmpeqExt w s
  | .acmpltuExt => execAcmpltuExt w s
  | .ajoinExt => execAjoinExt w s
  | .pnz => execPnz w (d.extractLsb' 0 4) s
  | .vfadd => execVfadd w (Rm.ofDst d) s
  | .vfsub => execVfsub w (Rm.ofDst d) s
  | .vfmul => execVfmul w (Rm.ofDst d) s
  | .vfma => execVfma w (Rm.ofDst d) s
  | .vfmin => execVfmin w s
  | .vfmax => execVfmax w s
  | .vfcmpeq => execVfcmpeq w s
  | .vfcmplt => execVfcmplt w s
  | .vfcmple => execVfcmple w s
  | .vfcmpun => execVfcmpun w s
  | .vfradd => execVfradd w s
  | .vfrmax => execVfrmax w s
  | .vfrmin => execVfrmin w s
  | .cvt => execCvt w s
  | .cvtAmax => execCvtAmax w s
  | .vadd => execVadd w s
  | .vsub => execVsub w s
  | .vaddS => execVaddS w s
  | .vsubS => execVsubS w s
  | .vadduS => execVadduS w s
  | .vsubuS => execVsubuS w s
  | .vmul => execVmul w s
  | .vmin => execVmin w s
  | .vmax => execVmax w s
  | .vminu => execVminu w s
  | .vmaxu => execVmaxu w s
  | .vabs => execVabs w s
  | .vshl => execVshl w s
  | .vshr => execVshr w s
  | .vsar => execVsar w s
  | .vand => execVand w s
  | .vor => execVor w s
  | .vxor => execVxor w s
  | .vandn => execVandn w s
  | .vcmpeq => execVcmpeq w s
  | .vcmpne => execVcmpne w s
  | .vcmplt => execVcmplt w s
  | .vcmple => execVcmple w s
  | .vcmpltu => execVcmpltu w s
  | .vcmpleu => execVcmpleu w s
  | .vradd => execVradd w s
  | .vrmax => execVrmax w s
  | .vrmin => execVrmin w s
  | .vdot4S => execVdot4S w s
  | .vmix => execVmix w s
  | .vperm => execVperm w s
  | .vbcast => execVbcast w s
  | .vrot => execVrot w s
  | .vins => execVins w s
  | .vext => execVext w s
  | .vpack => execVpack w s
  | .vpackS => execVpackS w s
  | .vunpkl => execVunpkl w s
  | .vunpkh => execVunpkh w s
  | .vsel => execVsel w s
  | .vtag => execVtag w s
  | .viota => execViota w s
  | .vfaddExt => execVfaddExt w (Rm.ofDst d) s
  | .vfsubExt => execVfsubExt w (Rm.ofDst d) s
  | .vfmulExt => execVfmulExt w (Rm.ofDst d) s
  | .vfmaExt => execVfmaExt w (Rm.ofDst d) s
  | .vfminExt => execVfminExt w s
  | .vfmaxExt => execVfmaxExt w s
  | .vfcmpeqExt => execVfcmpeqExt w s
  | .vfcmpltExt => execVfcmpltExt w s
  | .vfcmpleExt => execVfcmpleExt w s
  | .vfcmpunExt => execVfcmpunExt w s
  | .vfraddExt => execVfraddExt w s
  | .vfrmaxExt => execVfrmaxExt w s
  | .vfrminExt => execVfrminExt w s
  | .cvtExt => execCvtExt w s
  | .cvtAmaxExt => execCvtAmaxExt w s
  | .vaddExt => execVaddExt w s
  | .vsubExt => execVsubExt w s
  | .vaddSExt => execVaddSExt w s
  | .vsubSExt => execVsubSExt w s
  | .vadduSExt => execVadduSExt w s
  | .vsubuSExt => execVsubuSExt w s
  | .vmulExt => execVmulExt w s
  | .vminExt => execVminExt w s
  | .vmaxExt => execVmaxExt w s
  | .vminuExt => execVminuExt w s
  | .vmaxuExt => execVmaxuExt w s
  | .vabsExt => execVabsExt w s
  | .vshlExt => execVshlExt w s
  | .vshrExt => execVshrExt w s
  | .vsarExt => execVsarExt w s
  | .vandExt => execVandExt w s
  | .vorExt => execVorExt w s
  | .vxorExt => execVxorExt w s
  | .vandnExt => execVandnExt w s
  | .vcmpeqExt => execVcmpeqExt w s
  | .vcmpneExt => execVcmpneExt w s
  | .vcmpltExt => execVcmpltExt w s
  | .vcmpleExt => execVcmpleExt w s
  | .vcmpltuExt => execVcmpltuExt w s
  | .vcmpleuExt => execVcmpleuExt w s
  | .vraddExt => execVraddExt w s
  | .vrmaxExt => execVrmaxExt w s
  | .vrminExt => execVrminExt w s
  | .vdot4SExt => execVdot4SExt w s
  | .vmixExt => execVmixExt w s
  | .vpermExt => execVpermExt w s
  | .vbcastExt => execVbcastExt w s
  | .vrotExt => execVrotExt w s
  | .vinsExt => execVinsExt w s
  | .vextExt => execVextExt w s
  | .vpackExt => execVpackExt w s
  | .vpackSExt => execVpackSExt w s
  | .vunpklExt => execVunpklExt w s
  | .vunpkhExt => execVunpkhExt w s
  | .vselExt => execVselExt w s
  | .vtagExt => execVtagExt w s
  | .viotaExt => execViotaExt w s
  | .rcp => execRcp w s
  | .rsq => execRsq w s
  | .sqrt => execSqrt w s
  | .exp2 => execExp2 w s
  | .log2 => execLog2 w s
  | .tanh => execTanh w s
  | .sigm => execSigm w s
  | .erf => execErf w s
  | .ldB => execLdB w s
  | .ldBu => execLdBu w s
  | .ldH => execLdH w s
  | .ldHu => execLdHu w s
  | .ldW => execLdW w s
  | .vld => execVld w s
  | .vlds => execVlds w s
  | .stB => execStB w s
  | .stH => execStH w s
  | .stW => execStW w s
  | .stD => execStD w s
  | .vst => execVst w s
  | .vstm => execVstm w s
  | .atadd => execAtadd w s
  | .atmin => execAtmin w s
  | .atmax => execAtmax w s
  | .atminu => execAtminu w s
  | .atmaxu => execAtmaxu w s
  | .atand => execAtand w s
  | .ator => execAtor w s
  | .atswp => execAtswp w s
  | .atcas => execAtcas w s
  | .fill => execFill w s
  | .ldsc => execLdsc w s
  | .probe => execProbe w s
  | .wpset => execWpset w s
  | .evac => execEvac w s
  | .ldBExt => execLdBExt w s
  | .ldBuExt => execLdBuExt w s
  | .ldHExt => execLdHExt w s
  | .ldHuExt => execLdHuExt w s
  | .ldWExt => execLdWExt w s
  | .vldExt => execVldExt w s
  | .vldsExt => execVldsExt w s
  | .stBExt => execStBExt w s
  | .stHExt => execStHExt w s
  | .stWExt => execStWExt w s
  | .stDExt => execStDExt w s
  | .vstExt => execVstExt w s
  | .vstmExt => execVstmExt w s
  | .ataddExt => execAtaddExt w s
  | .atminExt => execAtminExt w s
  | .atmaxExt => execAtmaxExt w s
  | .atminuExt => execAtminuExt w s
  | .atmaxuExt => execAtmaxuExt w s
  | .atandExt => execAtandExt w s
  | .atorExt => execAtorExt w s
  | .atswpExt => execAtswpExt w s
  | .atcasExt => execAtcasExt w s
  | .fillExt => execFillExt w s
  | .ldscExt => execLdscExt w s
  | .probeExt => execProbeExt w s
  | .wpsetExt => execWpsetExt w s
  | .evacExt => execEvacExt w s
  | .cpy => execCpy w s
  | .cpys => execCpys w s
  | .xfer => execXfer w s
  | .catom => execCatom w s
  | .shape => execShape w s
  | .dct => execDct w s
  | .cbclr => execCbclr w s
  | .wpclr => execWpclr w s
  | .cpyExt => execCpyExt w s
  | .cpysExt => execCpysExt w s
  | .xferExt => execXferExt w s
  | .catomExt => execCatomExt w s
  | .shapeExt => execShapeExt w s
  | .dctExt => execDctExt w s
  | .cbclrExt => execCbclrExt w s
  | .wpclrExt => execWpclrExt w s
  | .signal => execSignal w s
  | .gmark => execGmark w s
  | .mcfg => execMcfg w (engOfDst d) s
  | .mdrain => execMdrain w.gd (engOfDst d) s
  | .mcall => execMcall w (engOfDst d) s
  | .claim => execClaim w (engOfDst d) s
  | .release => execRelease w (engOfDst d) s
  | .mput => execMput w (engOfDst d) s
  | .mget => execMget w (engOfDst d) s
  | .mzero => execMzero w (engOfDst d) s
  | .mlget => execMlget w (engOfDst d) s
  | .mpsw => execMpsw w (engOfDst d) s
  | .lend => execLend w s
  | .reclaim => execReclaim w s
  | .mcfgExt => execMcfgExt w (engOfDst d) s
  | .mdrainExt => execMdrainExt w (engOfDst d) s
  | .mcallExt => execMcallExt w (engOfDst d) s
  | .claimExt => execClaimExt w (engOfDst d) s
  | .releaseExt => execReleaseExt w (engOfDst d) s
  | .mputExt => execMputExt w (engOfDst d) s
  | .mgetExt => execMgetExt w (engOfDst d) s
  | .mzeroExt => execMzeroExt w (engOfDst d) s
  | .mlgetExt => execMlgetExt w (engOfDst d) s
  | .mpswExt => execMpswExt w (engOfDst d) s
  | .lendExt => execLendExt w s
  | .reclaimExt => execReclaimExt w s

/-- The state a step goes on to; itself where it stops. -/
def goOn (s : State) (o : Host.Outcome State Fault Refusal) : State :=
  match o with
  | .next t => t
  | _ => s

/-- The slot word at the cursor performed: the trigger or the move it names. -/
def State.runWord (s : State) (w : Word24) : State :=
  match slotTarget (Cls.ofSlot s.frame.cur.slot) (slotDst w) with
  | some (some op) => goOn s (runOp op (slotDst w) (Slot.ofWord w) s)
  | some none => goOn s (execMove (Slot.ofWord w) (slotDst w) s)
  | none => s
/-- The state with the cursor at a slot. -/
def State.atSlot (s : State) (j : Nat) : State := { s with frame := { s.frame with cur := { s.frame.cur with slot := j } } }

/-- Whether a slot word is a move to an operand port, which comes before the bundle's triggers (R47, R79). -/
def isPortMove (j : Nat) (w : Word24) : Bool :=
  slotTarget (Cls.ofSlot j) (slotDst w) == some none && decide (0x100 ≤ (slotDst w).toNat) && decide ((slotDst w).toNat < 0x106)

/-- The non-empty sub-bundles of a bundle, in order (R54). -/
def subsOf (k : Nat) (slots : List (Nat × Word24)) : List Nat :=
  (List.range 8).filter fun i => slots.any fun x => subOf k x.1 == i

/-- Am updates that land on the context at the cursor: those due at the bundle's sc, or all; of one slot, or of every
(R40, R111). -/
def State.landHere (s : State) (all : Bool) (slot : Option Nat) : State :=
  s.setCtx (s.ctx.landAms s.arch.sclk all slot)

/-- The long-immediate words an executed slot takes: its extension word, and the word its trigger carries (R71, R72). -/
def takenBy (j : Nat) (w : Word24) : Nat :=
  match slotTarget (Cls.ofSlot j) (slotDst w) with
  | some (some op) => (isExtId (slotDst w)).toNat + (carriesOf op).toNat
  | _ => 0
/-- The words left for slot n, once the executed slots before it have taken theirs (R71). -/
def restAt (n : Nat) : List (Nat × Word24) → List Word24 → List Word24
  | [], li => li
  | (j, w) :: more, li => if n ≤ j then li else restAt n more (li.drop (takenBy j w))

/-- An executed slot performed with the words left for it. -/
def State.runSlot (s : State) (ex : List (Nat × Word24)) (x : Nat × Word24) : State :=
  let f := s.frame
  let li := if f.hdr.s then f.li.dropLast else f.li
  ({ s with frame := { f with cur := { f.cur with slot := x.1 }, rest := restAt x.1 ex li } } : State).runWord x.2

/-- Some of the executed slots performed in increasing order, the operand-port moves first. The am updates of a slot that land in the
cycle, none, those due (some false) or all of the phase (some true), land before its own move (R40, R43, R49). -/
def State.runSub (s : State) (am : Nat → Option Bool) (picks : Nat → Bool) (ex : List (Nat × Word24)) : State :=
  let s1 := (ex.filter fun x => picks x.1 && isPortMove x.1 x.2).foldl (fun (s : State) x => s.runSlot ex x) s
  let land := fun (s : State) (j : Nat) (when : Bool) =>
    match am j with
    | some all => if when then s.landHere all (some j) else s
    | none => s
  (List.range 8).foldl (fun (s : State) j =>
    let t := land s j true
    let u := match ex.find? fun x => x.1 == j with
      | some x => if picks j && !isPortMove j x.2 then t.runSlot ex x else t
      | none => t
    land u j (am j == some true)) s1
/-- The executed slots of an unsplit bundle performed; under a FLIP.W every am update of the phase lands (R49). -/
def State.runSlots (s : State) (wait : Bool) (ex : List (Nat × Word24)) : State := s.runSub (fun _ => some wait) (fun _ => true) ex

/-- A slot that performs in its bundle's first cycle whatever the split: a load, which performs in the cycle after it, LDSC and
MCALL, whose effects begin at issue, CBCLR and WPCLR, whose effects are those of the source cycle (R55, R157, R163, R175, R179,
R201). -/
def isEarly (j : Nat) (w : Word24) : Bool :=
  match slotTarget (Cls.ofSlot j) (slotDst w) with
  | some (some op) =>
    match op with
    | .ldB | .ldBu | .ldH | .ldHu | .ldW | .vld | .vlds | .ldsc | .mcall | .cbclr | .wpclr => true
    | .ldBExt | .ldBuExt | .ldHExt | .ldHuExt | .ldWExt | .vldExt | .vldsExt | .ldscExt | .mcallExt | .cbclrExt | .wpclrExt => true
    | _ => false
  | _ => false
/-- The slots among those executed that are early. -/
def earlyOf (ex : List (Nat × Word24)) (j : Nat) : Bool := ex.any fun x => x.1 == j && isEarly j x.2

/-! ## Erring words in the rows a bundle reads (R60, R61, R250) -/

/-- The extension words of the executed slots (R71, R72). -/
def extWords : List (Nat × Word24) → List Word24 → List Word24
  | [], _ => []
  | (j, w) :: rest, li =>
    (if isExtId (slotDst w) && decide (takenBy j w ≠ 0) then li.take 1 else []) ++ extWords rest (li.drop (takenBy j w))
/-- The source IDs the executed slots read. -/
def sourceIds (ex : List (Nat × Word24)) (li : List Word24) : List (BitVec 9) :=
  (ex.map fun x => (Slot.ofWord x.2).src) ++ (extWords ex li).flatMap fun e => [extX e, extY e]

/-- The logical rows a source reads: a user vector's visible face, or the face of the served context's register or tile
row that an HX port reads (R28, R77). -/
def State.sourceRows (s : State) (id : BitVec 9) : List Nat :=
  let n := id.toNat
  let row := fun (u i : Nat) (hid : Bool) => vecRow u i + (((s.core.ctx u).cur.regs.getV i).sw != hid : Bool).toNat
  if 0x50 ≤ n ∧ n < 0x70 then if s.inHandler then [] else [row s.frame.cur.ctx (n - 0x50) false]
  else if n = 0x100 ∨ n = 0x101 then
    match s.core.svc.served with
    | none => []
    | some u =>
      let sel := (s.arch.hsel.extractLsb' 0 9).toNat
      let hid := n == 0x101
      if 0x50 ≤ sel ∧ sel < 0x70 then [row u (sel - 0x50) hid]
      else if 0xC0 ≤ sel ∧ sel - 0xC0 < s.tiles then
        let t := sel - 0xC0
        [tileRow0 u s.tiles t + (if ((s.core.ctx u).cur.regs.getAcc t).sw != hid then 64 else 0) +
          (s.arch.hsel.extractLsb' 9 6).toNat]
      else []
  else []
/-- The rows the executed slots read, where any word of the core errs. -/
def State.readRows (s : State) (ex : List (Nat × Word24)) : List Nat :=
  if s.core.rows.errs = [] then [] else (sourceIds ex s.frame.li).flatMap s.sourceRows
/-- The physical row of the first erring word the executed slots read: where several rows that a bundle reads err, it alone is reported and
named: DESIGN CHOICE, unsafe (assumption 91). -/
def State.erringRow (s : State) (ex : List (Nat × Word24)) : Option Nat :=
  ((s.readRows ex).find? fun l => s.core.rows.badRow l).map s.core.rows.physRow
/-- The single-bit errors the executed slots read corrected in place (R61, R249). -/
def State.fixReads (s : State) (ex : List (Nat × Word24)) : State :=
  if s.core.rows.errs = [] then s
  else s.setCore { s.core with rows := (s.readRows ex).foldl Rows.fixRow s.core.rows }
/-- Erring rows reported for in-field test (R61). -/
def State.reportRows (s : State) (l : List Nat) : State :=
  if l.isEmpty then s else s.setCore { s.core with rows := l.foldl Rows.report s.core.rows }

/-- An engine's mp registers as a phase's start left them (R60). -/
def Engine.backMp (g : Engine) (e : Bool) (old : SMap (Face W64)) : Engine :=
  { g with mp := (old.filter fun p => p.1 / 8 == e.toNat).foldl (fun m p => m.put (p.1 % 8) p.2) g.mp }

/-- The phase of the cursor's context rolled back: its start's state, the mp registers it wrote and its metadata words as they
stood, no unperformed load of it left (R60). The replay's first bundle issues in the next core cycle: DESIGN CHOICE, unsafe
(assumption 67). -/
def State.rollBack (s : State) : State :=
  let k := s.core
  let c := s.frame.cur.ctx
  let x := k.ctx c
  s.setCore ({ k with accs := k.accs.filter (fun a => a.ctx != c || decide (a.sclk.toNat < x.start.sclk.toNat)),
                      me0 := k.me0.backMp false x.mpOld, me1 := k.me1.backMp true x.mpOld }.setCtx c
    { x with cur := x.start, replay := true, landed := [], cut := [], mpOld := [],
             fetch := { x.fetch with mdbuf := x.mdStart } })

/-! ## The checks of C and S (R68, R242, R304) -/

/-- A request of an operating point refused: below FLOOR, or OP7 without the context's lease. -/
def Core.opRefused (k : Core) (c j : Nat) : Bool :=
  decide (j < k.rows.floor) || (j == 7 && !(match k.lease with | some l => l.ctx == c | none => false))
/-- The live-list pointer of a header with S: its last long immediate, zero-extended (R71). -/
def livePointer (h : Header) (li : List Word24) : Option Nat := if h.s then (li.getLast?).map (·.toNat) else none
/-- The errors of a bundle's C and S bits. -/
def State.headErrs (s : State) (h : Header) (li : List Word24) : List (Nat × W64) :=
  let n := (s.launch.map fun l => l.lives.length).getD 0
  (if h.c && s.core.opRefused s.frame.cur.ctx h.ops.toNat then [(Err.operatingPoint, BitVec.ofNat 64 h.ops.toNat)] else []) ++
    (match livePointer h li with
     | some p => if !s.inHandler && decide (n ≤ p) then [(Err.liveList, BitVec.ofNat 64 p)] else []
     | none => [])

/-- OP_CHANGE_REQUEST: a bundle with C set requests a point, checked against FLOOR and the lease (R68, R242); a refused one
stops its context. -/
def execOpChangeRequest (j : BitVec 3) (s : State) : Host.Outcome State Fault Refusal :=
  let core := s.frame.cur.core
  if s.core.opRefused s.frame.cur.ctx j.toNat then
    .next (s.stopStanding core s.frame.cur.ctx Err.operatingPoint (BitVec.ofNat 64 j.toNat) 0)
  else .next (s.requestOp core j.toNat)

/-! ## The next bundle (R65, R123, R125) -/

/-- The loop state and the next bundle after one that takes no transfer (R125). -/
def loopNext (pc fall : W64) : List LoopLevel → List LoopLevel × W64
  | [] => ([], fall)
  | l :: rest =>
    if l.stop ≠ pc then (l :: rest, fall)
    else if 1 < l.count.toNat then ({ l with count := l.count - 1 } :: rest, l.start)
    else loopNext pc fall rest

/-- The cursor's context moved to its next bundle: a taken transfer's target, else the loops' or the following one; a
change away from fall-through leaves a record (R329). -/
def State.advance (s : State) : State :=
  let f := s.frame
  let a := s.arch
  match f.target with
  | some t => (s.setArch { a with pc := t }).trace 1 t.toNat
  | none =>
    let r := loopNext f.pc f.fall a.loops
    let s1 := s.setArch { a with loops := r.1, pc := r.2 }
    if r.2 = f.fall then s1 else s1.trace 1 r.2.toNat

/-- MPC and the metadata buffer after a bundle whose slot 6 executed a trigger, or not (R84, R127). -/
def State.takeMeta (s : State) (taken : Bool) : State :=
  let x := s.ctx
  match s.frame.newMpc with
  | some m => s.setCtx { x with cur := { x.cur with mpc := m }, fetch := { x.fetch with mdbuf := [] } }
  | none =>
    if taken && x.cur.mpc != 0 then
      s.setCtx { x with cur := { x.cur with mpc := x.cur.mpc + 4 }, fetch := { x.fetch with mdbuf := x.fetch.mdbuf.drop 1 } }
    else s

/-! ## The issue (R50 to R61) -/

/-- The particulars of a stop on the bundle in progress: where it is illegal, that alone (R86, R321). -/
def Frame.stopInfo (f : Frame) (errs : List (Nat × W64)) (sclk : W64) : StopInfo :=
  let bad := errs.filter fun e => e.1 == Err.illegalBundle
  { errs := if bad.isEmpty then errs else bad, pc := f.pc, sclk := sclk }

/-- Whether the cursor's bundle waits for a metadata word: slot 6 executes a trigger of an engine while the stream is open
and its next word is not buffered (R84). -/
def State.metaStall (s : State) (ex : List (Nat × Word24)) : Bool :=
  !s.inHandler && s.arch.mpc != 0 && s.ctx.fetch.mdbuf.isEmpty &&
    ex.any fun x => x.1 == 6 && (trigOf .c6 (slotDst x.2)).isSome
/-- The vector banks that executed moves of a bundle write (R210). -/
def banksOf (ex : List (Nat × Word24)) : BitVec 4 :=
  ex.foldl (fun b x =>
    let d := (slotDst x.2).toNat
    if 0x50 ≤ d ∧ d < 0x70 then b ||| BitVec.ofNat 4 (2 ^ ((d - 0x50) / 8)) else b) 0
/-- Whether an executed slot is an MCALL (R201). -/
def callsOf (ex : List (Nat × Word24)) : Bool :=
  ex.any fun x => match slotTarget (Cls.ofSlot x.1) (slotDst x.2) with
    | some (some .mcall) => true
    | some (some .mcallExt) => true
    | _ => false
/-- The end address of an executed LOOP (R124). -/
def State.loopStop (s : State) (ex : List (Nat × Word24)) : Option W64 :=
  (ex.find? fun x => x.1 == 0).bind fun x =>
    let stop := relTarget s.frame.pc ((s.frame.rest.getD (isExtId (slotDst x.2)).toNat 0).signExtend 32)
    match slotTarget .c0 (slotDst x.2) with
    | some (some .loop) => some stop
    | some (some .loopExt) => some stop
    | _ => none
/-- The segments that the checks of a bundle have read from memory kept for a replay of the phase, which does not read them again
(R67, R82). -/
def State.keepChecks (s : State) (l : List W64) : State :=
  if s.inHandler then s
  else
    l.foldl (fun (s : State) a =>
      if (s.ctx.fetch.residentHalf a).isSome then s
      else
        match s.segmentOf s.frame.cur.core s.frame.cur.ctx a with
        | some g => if s.ctx.kept.any fun h => h.va == g.va then s else s.setCtx { s.ctx with kept := s.ctx.kept ++ [g] }
        | none => s) s
/-- The governor's split of a bundle: 1, 2 or 4 under power pressure, else 1 (R54, R56). -/
def State.splitOf (s : State) (core : Nat) : Nat :=
  if s.inHandler || !(s.coreAt core).p15 || s.inStep core then 1 else 2 ^ (Config.splitChoice s.ctr % 3)

/-- Whether slot 6 executes a trigger of an engine, which takes a metadata word (R84). -/
def State.takes (s : State) (ex : List (Nat × Word24)) : Bool :=
  !s.inHandler && ex.any fun x => x.1 == 6 && (trigOf .c6 (slotDst x.2)).isSome

/-- What takes place at the end of an issued or nullified bundle, the frame's: SCLK, MPC, the bank binding, HSEL, the requested
point, the next bundle, and the flip left to come (R51, R55, R242). -/
def State.commit (s : State) (taken : Bool) : State :=
  let core := s.frame.cur.core
  let c := s.frame.cur.ctx
  let f := s.frame
  let h := f.hdr
  let s1 := (s.takeMeta taken).advance
  let a := s1.arch
  let fi : FlipInfo :=
    { pc := f.pc, last := f.cyc1, wait := h.w, safe := if s.inHandler then none else livePointer h f.li, block := f.block,
      barStep := f.barStep, halt := f.halt, eret := f.eret, mdrain := f.mdrain }
  let x := { s1.ctx with
    cur := { a with sclk := a.sclk + 1, bind := f.newBind.getD a.bind, hsel := f.newHsel.getD a.hsel },
    flip := if h.f then some fi else none, first := f.cyc1 + 1, since := s.pcc, safeAt := none, saved := false, split := none }
  let s2 := s1.setCoreAt core ((s1.coreAt core).setCtx c x)
  if h.c then s2.requestOp core h.ops.toNat else s2

/-- The state with the cursor at an engine. -/
def State.atEng (s : State) (e : Bool) : State := { s with frame := { s.frame with cur := { s.frame.cur with eng := e } } }
/-- The timing fault of a plain flip, where a write of its phase does not land by the end of the bundle's cycle (R48). -/
def State.flipErrs (s : State) : List (Nat × W64) :=
  let late := s.core.late s.frame.cur.ctx
  if s.frame.hdr.f && !s.frame.hdr.w && !late.isEmpty then [(Err.timing, BitVec.ofNat 64 (earliest late))] else []

/-- A fatal stop on the bundle at the cursor: the am updates due at its sc have landed, and a plain flip's timing fault in the
same cycle is recorded with the bundle's own errors (R40, R59, R321, R336). reg: a source's row is lost (R250). -/
def State.stopAt (s : State) (errs : List (Nat × W64)) (reg : Bool) : State :=
  let s1 := s.landHere false none
  let i := s.frame.stopInfo errs s.arch.sclk
  s1.stop s.frame.cur.core s.frame.cur.ctx { i with errs := i.errs ++ s1.flipErrs, reg := reg }

/-- The slots whose am updates have landed once a sub-bundle has: a slot's update lands in its own sub-bundle's cycle, so that it and
a move of another slot keep the order they have unsplit (R43, R55); the last sub-bundle lands all that is due. -/
def amOf (k i : Nat) (last : Bool) (j : Nat) : Option Bool := if last || decide (subOf k j ≤ i) then some false else none

/-- The first sub-bundle of a split bundle: what the later ones are to read is kept, the early slots and its own perform, and the
am updates due of its slots land (R40, R55). The context stands at no safe point any more (R62). -/
def State.startSplit (s : State) (ex : List (Nat × Word24)) (i : Nat) (more : List Nat) : State :=
  let f := { s.frame with srcs := s.keepSrcs, seen := some s.keepSeen }
  let t := ({ s with frame := f } : State).runSub (amOf f.split i false) (fun j => subOf f.split j == i || earlyOf ex j) ex
  t.setCtx { t.ctx with split := some { frame := t.frame, slots := ex, subs := more }, safeAt := none, saved := false }

/-- The next sub-bundle of a split bundle, in the core cycle after the last; with the last one the bundle ends (R54, R55). -/
def State.nextSub (s : State) (r : SplitRun) : State :=
  let s1 : State := { s with frame := r.frame }
  match r.subs with
  | [] => s1.commit (s1.takes r.slots)
  | i :: more =>
    let am := if more.isEmpty && r.frame.hdr.f && r.frame.hdr.w then fun _ => some true else amOf r.frame.split i more.isEmpty
    let t := s1.runSub am (fun j => subOf r.frame.split j == i && !earlyOf r.slots j) r.slots
    if !t.frame.raised.isEmpty then (s1.reportRows t.frame.lost).stopAt t.frame.raised false
    else if more.isEmpty then t.commit (t.takes r.slots)
    else t.setCtx { t.ctx with split := some { r with frame := t.frame, subs := more } }

/-- A bundle that issues, or is nullified, on the cursor's context: its slots are performed on a trial state, and with an
error raised none of them takes effect (R55, R59); an erring row rolls the phase back once and is reported (R60, R61). A bundle
that reads an erring row and raises another fatal error stops, with both: DESIGN CHOICE, unsafe (assumption 80). In a replay any
uncorrectable error stops the context, also that of a row that did not cause the rollback: DESIGN CHOICE, unsafe (assumption 91).
A bundle with more than one sub-bundle performs the first. -/
def State.perform (s : State) (ex : List (Nat × Word24)) (subs : List Nat) : State :=
  let h := s.frame.hdr
  let r := s.fixReads ex
  let t := r.runSlots (h.f && h.w) ex
  let errs := s.headErrs h s.frame.li ++ t.frame.raised
  let checked := (s.loopStop ex).toList ++ t.frame.target.toList
  match s.erringRow ex with
  | some row =>
    let q := (r.reportRows (row :: t.frame.lost)).keepChecks checked
    if errs.isEmpty && !t.ctx.noRoll && !s.ctx.replay && !s.inHandler then q.rollBack
    else q.stopAt (errs ++ [(Err.dataLoss, BitVec.ofNat 64 row)]) true
  | none =>
    if !errs.isEmpty then (r.reportRows t.frame.lost).stopAt errs false
    else
      match subs with
      | i :: j :: more => (r.startSplit ex i (j :: more)).keepChecks checked
      | _ => (t.keepChecks checked).commit (s.takes ex)

/-- The bundle at the cursor's context's PC in a packet: whether it is elided, and the state after it (R51, R86); a context that has
elided the first bundle of its phase stands at no safe point any more (R62). The first bundle
after context load, which no issued bundle precedes, is nullified like any other: DESIGN CHOICE, unsafe (assumption 68). -/
def State.issueFrom (s : State) (p : Packet) : Bool × State :=
  let a := s.arch
  let b := Packet.bundle p a.pc
  let fr : Frame := { cur := s.frame.cur, hdr := b.hdr, li := b.li, rest := if b.hdr.s then b.li.dropLast else b.li,
                      pc := a.pc, fall := b.fall, cyc0 := s.core.cyc, cyc1 := s.core.cyc }
  let s0 : State := { s with frame := fr }
  match illegalDetail s.inHandler a.bind p b with
  | some n => (false, s0.stopAt [(Err.illegalBundle, BitVec.ofNat 64 n)] false)
  | none =>
    let ex := b.slots.filter fun x => s0.guard (Slot.ofWord x.2).gd
    let null := !b.slots.isEmpty && ex.isEmpty
    if null && b.hdr.e && !b.hdr.f && !b.hdr.c then
      (true, s0.advance.setCtx { s0.advance.ctx with safeAt := none, saved := false })
    else if s0.metaStall ex then (false, s)
    else
      let k := if null then 1 else s0.splitOf fr.cur.core
      let subs := if null then [] else subsOf k b.slots
      let s1 := if null || k = 1 && !(s.core.p15) then s0 else s0.draw.2
      let s2 := { s1 with frame := { fr with cyc1 := fr.cyc0 + (subs.length - 1), split := k, banks := banksOf ex, calls := callsOf ex } }
      (false, s2.perform ex subs)

/-- The cursor's context fetches and issues: results due come first (R45); a stall waits, an error of the fetch stops the
context. -/
def State.issueOnce (s : State) : Bool × State :=
  let a := s.arch
  let s0 := s.setArch (a.deliver a.sclk (s.enablesOf s.frame.cur.core s.frame.cur.ctx))
  let r := s0.fetch
  match r.1 with
  | .stall => (false, r.2)
  | .error code d =>
    (false, ({ r.2 with frame := { cur := s.frame.cur, pc := a.pc } } : State).stopAt [(code, d)] false)
  | .packet p => r.2.issueFrom p

/-- Bundles issued in one core cycle: elided ones take none (R51). -/
def State.issueLoop : Nat → State → State
  | 0, s => s
  | n + 1, s =>
    let r := s.issueOnce
    if r.1 then State.issueLoop n r.2 else r.2

/-- A split bundle in progress on the core's issuing context. -/
def Core.splitNow (k : Core) : Option SplitRun := k.issuing.bind fun c => (k.ctx c).split

/-- BUNDLE_ISSUE: the core's issuing context issues one bundle, or the next sub-bundle of one, unless the core is held or the
context may not issue yet (R55, R129, R302). -/
def execBundleIssue (s : State) : Host.Outcome State Fault Refusal :=
  let core := s.frame.cur.core
  match s.core.splitNow with
  | some r => .next (s.nextSub r)
  | none =>
    if s.core.cyc < s.core.hold ∨ s.core.cyc < s.core.stall then .next s
    else
      let r := s.pick core
      match r.1 with
      | none => .next r.2
      | some c =>
        if (r.2.coreAt core).cyc < ((r.2.coreAt core).ctx c).first then .next r.2
        else
          let cur : Cursor := { part := s.partOfCore core, die := dieOf core, core := core, ctx := c }
          .next (State.issueLoop 65536 { r.2 with frame := { cur := cur } })

end Sys2Proof.Machine
end

