-- ==== Sys2Proof/Machine/Health.lean ====
section
/-!
DEFINITION. What firmware and hardware do to a core beside its contexts: in-field test, demotion, patrol, firmware
evacuation (R245 to R251); operating-point windows, the governor, the planner, thermal limits (R241, R243, R348, R349);
the expiry of a lease (R350); the writing of dumps (R324 to R328).
-/
namespace Sys2Proof.Machine

/-- The energy of n events of a class on a core, charged to the device overhead account (R245, R247, R251). -/
def State.chargeOver (s : State) (core cls n : Nat) : State :=
  let e := n * (SMap.get (0 : BitVec 16) s.pkg.weights (16 * (s.coreAt core).pwr.op + cls)).toNat
  { s with pkg := { s.pkg with ovhenergy := s.pkg.ovhenergy + e } }

/-! ## Demotion (R245, R246, R250) -/

/-- A row's depth on a core. -/
def Rows.refDepth (x : Rows) (r : RowRef) : Nat :=
  match r with
  | .pool n => x.depthOf n
  | .larder n => x.ldepthOf n
/-- Whether a row is mapped, or of a claimed slot. -/
def Rows.refUsed (x : Rows) (r : RowRef) : Bool :=
  match r with
  | .pool n => x.mapped.any fun p => p.2 == n
  | .larder n => x.claimed (x.logSlot (n / 64))
/-- A row's depth changed. -/
def Rows.setDepth (x : Rows) (r : RowRef) (d : Nat) : Rows :=
  match r with
  | .pool n => { x with depth := x.depth.put n d }
  | .larder n => { x with ldepth := x.ldepth.put n d }
/-- Whether a number names a row of the core. -/
def rowExists (r : RowRef) : Bool :=
  match r with
  | .pool n => decide (n < 12800)
  | .larder n => decide (n < 2048)

/-- A demotion: of a row in use, FLOOR and the target are computed again and evacuation becomes pending (R246). -/
def Core.demote (k : Core) (r : RowRef) (d pcc : Nat) : Core :=
  let x := { k.rows.setDepth r d with gen := k.rows.gen + 1 }
  if k.rows.refUsed r then
    { k with rows := { x with floor := x.computeFloor, evacPend := true,
                              evacFrom := if x.evacPend then x.evacFrom else x.floor } }.retarget pcc
  else { k with rows := x }

/-- The erring words of a row, written over, hold no error (R249). -/
def Rows.clearRef (x : Rows) (r : RowRef) : Rows :=
  match r with
  | .pool n => { x with errs := x.errs.filter fun e => e.1 / 32 ≠ n }
  | .larder n => { x with errs := x.errs.filter fun e => e.1 / 32 ≠ 32768 + n }

/-- A count of R236 that a change of rows takes below its guarantee. -/
def fallsBelow (x y : Rows) (k : Nat) : Bool :=
  (decide ((guaranteed k).1 ≤ x.survivors k) && decide (y.survivors k < (guaranteed k).1)) ||
    (decide ((guaranteed k).2 ≤ x.slotSurvivors k) && decide (y.slotSurvivors k < (guaranteed k).2))
/-- A demotion on the cursor's core, with a capacity-warranty event for each guaranteed count it takes the core below; the map
is signed anew (R236, R237, R245, R246, R374). -/
def State.demoteHere (s : State) (r : RowRef) (d : Nat) : State :=
  let k := s.core.demote r d s.pcc
  ((List.range 8).filter (fallsBelow s.core.rows k.rows)).foldl
    (fun (s : State) j => s.hostEvent 1 [s.frame.cur.core, j, k.rows.survivors j]) ((s.setCore k).signMap)

/-- A test's or patrol's accesses of a row charged to the device overhead account: those of a pool row as scratch elements of 8
bytes, one of a Larder row (R245, R251, R346; assumption 71). -/
def State.chargeRow (s : State) (row : RowRef) (words : Nat) : State :=
  match row with
  | .pool _ => s.chargeOver s.frame.cur.core 3 words
  | .larder _ => s.chargeOver s.frame.cur.core 4 1

/-- IN_FIELD_TEST: a row in use is tested by margin reads, another one destructively, which leaves unspecified contents in
an unclaimed slot; a row that fails is demoted by one, from depth 7 to retired (R245). -/
def execInFieldTest (row : RowRef) (fails : Bool) (s : State) : Host.Outcome State Fault Refusal :=
  let k := s.core
  if ¬rowExists row then .next s
  else
    let used := k.rows.refUsed row
    let k1 := if used then k else { k with rows := k.rows.clearRef row }
    let s1 := match used, row with
      | false, .larder n =>
        s.draw.2.setCore { k1 with larder := k1.larder.writeBytes (16384 * k1.rows.logSlot (n / 64) + 256 * (n % 64))
                                              (openBytes s.ctr 256) }
      | _, _ => s.setCore k1
    let s2 := s1.chargeRow row 32
    let d := k.rows.refDepth row
    if fails && decide (d < 8) then .next (s2.demoteHere row (d + 1)) else .next s2

/-- The key of an erring word of a row. -/
def refKey (r : RowRef) (w : Nat) : Nat :=
  match r with
  | .pool n => poolErr n w
  | .larder n => larderErr (n / 64) (n % 64) w

/-- PATROL_READ: a single-bit error is written back corrected; an uncorrectable one retires the row at once (R250, R251).
The patrol pauses during communication steps and evacuations. -/
def execPatrolRead (row : RowRef) (word : BitVec 5) (s : State) : Host.Outcome State Fault Refusal :=
  let k := s.core
  if ¬rowExists row ∨ s.inStep s.frame.cur.core ∨ k.cyc < k.hold then .next s
  else
    let s1 := s.chargeRow row 1
    match SMap.find k.rows.errs (refKey row word.toNat) with
    | none => .next s1
    | some false => .next (s1.setCore { k with rows := { k.rows with errs := k.rows.errs.del (refKey row word.toNat) } })
    | some true => if k.rows.refDepth row = 8 then .next s1 else .next (s1.demoteHere row 8)

/-! ## Firmware evacuation (R247, R248) -/

/-- The first point from the FLOOR held before the demotion up to FOP at which the spares suffice. -/
def Rows.firmwarePoint (x : Rows) : Option Nat :=
  (List.range 8).find? fun j => decide (x.evacFrom ≤ j) && decide (j ≤ ppwFop x.ppw) && (x.evacPlan j).fits

/-- Every user context of the core that has not ended stops with capacity-lost, and the core is one its launch has lost (R248,
R309), none of them an arrived member of an episode; issue switches. -/
def State.loseCapacity (s : State) (core : Nat) : State :=
  let k := s.coreAt core
  let d := BitVec.ofNat 64 k.rows.evacFrom
  let s0 := s.modLaunchAt core fun l => { l with lost := core :: l.lost }
  let s1 := (List.range 4).foldl (fun (s : State) c =>
    match ((s.coreAt core).ctx c).status with
    | .halted => s
    | .absent => s
    | .stopped => s.stopOnly core c (s.standing core c Err.capacityLost d 0) none
    | _ => (s.leaveEpisodes core c).stopOnly core c (s.standing core c Err.capacityLost d 0) none) s0
  match k.issuing with
  | some c => if c = handlerCtx then s1 else s1.switchFrom core c 2
  | none => s1

/-- A firmware evacuation that has completed: the rows and slots have moved, and FLOOR changes (R244, R247). -/
def State.finishEvacuation (s : State) (core j : Nat) : State :=
  let k := s.coreAt core
  let p := k.rows.evacPlan j
  let k0 := { k with rows := { k.rows with fwEvac := none } }
  if p.fits then (s.setCoreAt core (k0.evacuate p s.pcc)).chargeOver core 9 (p.d.length + 64 * p.dl.length)
  else s.setCoreAt core k0

/-- FIRMWARE_EVACUATION: with evacuation pending, no engine Busy and no communication step running, the first point that
suffices holds the core for the evacuation's cycles, in whose last the rows and slots have moved; if no point does, capacity is
lost (R244, R247, R248). -/
def execFirmwareEvacuation (s : State) : Host.Outcome State Fault Refusal :=
  let core := s.frame.cur.core
  let k := s.core
  match k.rows.fwEvac with
  | some (j, t) => if k.cyc < t then .next s else .next (s.finishEvacuation core j)
  | none =>
    if !k.rows.evacPend || s.evacBusy core then .next s
    else
      match k.rows.firmwarePoint with
      | none => .next (s.loseCapacity core)
      | some j =>
        let t := k.cyc + (k.rows.evacPlan j).cycles
        .next (s.setCore { k with hold := max k.hold (t + 1), rows := { k.rows with fwEvac := some (j, t) } })

/-! ## Operating points (R241, R243, R348, R349) -/

/-- OP_STEP_WINDOW_END: the window closes, OPC takes the end point with a record of TYPE 0xB, and the next step toward the
target begins (R241, R243, R329). -/
def execOpStepWindowEnd (s : State) : Host.Outcome State Fault Refusal :=
  let k := s.core
  match k.pwr.window with
  | none => .next s
  | some (b, t) =>
    if s.pcc < t then .next s
    else .next (s.setCore (({ k with pwr := { k.pwr with op := b, window := none } }.trace s.pcc 7 0xB 0 b).retarget s.pcc))

/-- The governor's next state with average power a (R349). -/
def Power.evaluate (p : Power) (a : Nat) : Power :=
  let high := decide (p.cap < a)
  let low := decide (10 * a ≤ 9 * p.cap)
  match p.gov with
  | .none => if high then { p with gov := .pressure, evals := 0, calm := 0 } else p
  | .pressure =>
    let n := p.evals + 1
    let calm := if low then p.calm + 1 else 0
    if 2 ≤ calm then { p with gov := .none, evals := 0, calm := 0 }
    else if high && n == 10 then { p with gov := .skip, skip := 1, evals := n, calm := 0 }
    else { p with evals := n, calm := calm }
  | .skip =>
    if high then { p with skip := min 7 (p.skip + 1) }
    else if low then
      if p.skip ≤ 1 then { p with gov := .pressure, skip := 0, evals := 0, calm := 0 } else { p with skip := p.skip - 1 }
    else p

/-- GOVERNOR_EVALUATION: at a PCC multiple of 3,000 the governor moves with the core's average power (R349). -/
def execGovernorEvaluation (power : Nat) (s : State) : Host.Outcome State Fault Refusal :=
  let k := s.core
  if s.pcc % 3000 = 0 then .next (s.setCore { k with pwr := k.pwr.evaluate power }) else .next s

/-- A core's ceiling from its assignment and its die's temperature (R348). -/
def limitCeiling (hot : Bool) (planned : Nat) : Nat := if hot then min 4 planned else planned

/-- The partition that owns a core (R337). -/
def State.ownerOf (s : State) (core : Nat) : Option Nat :=
  (s.parts.find? fun p => p.2.pr.vf != 0 && p.2.pr.cores.getLsbD core).map (·.1)
/-- The power caps of some cores together. -/
def State.capSum (s : State) (p : Nat → Bool) : Nat := s.cores.foldl (fun n k => if p k.1 then n + k.2.pwr.cap else n) 0
/-- What the caps of some cores leave a core: its partition's sum to at most POWCAP, and all to at most the package cap (R337, R348). -/
def State.capLeft (s : State) (core : Nat) (counted : Nat → Bool) : Nat :=
  let all := s.pkg.pkgcap - s.capSum counted
  match s.ownerOf core with
  | none => all
  | some p =>
    let r := (s.part p).pr
    if r.powcap = 0 then all else min all (r.powcap.toNat - s.capSum fun c => counted c && r.cores.getLsbD c)
/-- The largest cap a core may be assigned beside the others. -/
def State.capRoom (s : State) (core : Nat) : Nat := s.capLeft core (· != core)
/-- The assigned caps cut, in core order, to what a lower package cap or POWCAP leaves: DESIGN CHOICE, unsafe (assumption 72). -/
def State.recap (s : State) : State :=
  s.cores.foldl (fun (t : State) k =>
    let n := t.capLeft k.1 (decide <| · < k.1)
    if (t.coreAt k.1).pwr.cap ≤ n then t else t.setCoreAt k.1 { t.coreAt k.1 with pwr := { (t.coreAt k.1).pwr with cap := n } }) s

/-- PLANNER_ASSIGNMENT: a core's ceiling and power cap, held to what POWCAP and the package cap leave, its boost allowance, and a
credit of its partition's boost pool (R348, R350; assumption 72). -/
def execPlannerAssignment (ceiling : BitVec 3) (cap pb credit : Nat) (s : State) : Host.Outcome State Fault Refusal :=
  let core := s.frame.cur.core
  let k := s.core
  let hot := SMap.get false s.pkg.hot (dieOf core)
  let k1 := { k with pwr := { k.pwr with planned := ceiling.toNat, ceiling := limitCeiling hot ceiling.toNat, cap := min cap (s.capRoom core), pb := pb } }
  let s1 := s.setCore (k1.retarget s.pcc)
  match s.ownerOf core with
  | some p => .next (s1.setPart p { s1.part p with pool := (s1.part p).pool + Int.ofNat credit })
  | none => .next s1

/-- THERMAL_LIMIT: at 105 degrees every ceiling of the cursor's die is held at OP4 or below; from 110 on, until it falls
below 105, 7 cycles in 8 are skipped (R348). -/
def execThermalLimit (level : Thermal) (s : State) : Host.Outcome State Fault Refusal :=
  let die := s.frame.cur.die
  let hot := level != .below105
  let very := match level with
    | .below105 => false
    | .from105 => SMap.get false s.pkg.veryHot die
    | .from110 => true
  let s0 := if level = .below105 then s else s.hostEvent 4 [die, (level == .from110 : Bool).toNat]
  let s1 := { s0 with pkg := { s0.pkg with hot := s0.pkg.hot.put die hot, veryHot := s0.pkg.veryHot.put die very } }
  .next ((List.range 192).foldl (fun (s : State) i =>
    let k := s.coreAt (192 * die + i)
    let c := limitCeiling hot k.pwr.planned
    if c = k.pwr.ceiling then s
    else s.setCoreAt (192 * die + i) ({ k with pwr := { k.pwr with ceiling := c } }.retarget s.pcc)) s1)

/-- LEASE_EXPIRY: a lease whose time has run out ends without a refund (R350). -/
def execLeaseExpiry (s : State) : Host.Outcome State Fault Refusal :=
  match s.core.lease with
  | some l => if l.left = 0 then .next (s.endLease s.frame.cur.core false false) else .next s
  | none => .next s

/-! ## Dumps (R324 to R328) -/

/-- A 256-bit key from its four registers. -/
def keyOf4 (m : SMap W64) : BitVec 256 :=
  BitVec.ofNat 256 ((List.range 4).foldl (fun n i => n + 2 ^ (64 * i) * (SMap.get (0 : W64) m i).toNat) 0)
/-- Slots of a Cellar. -/
def Cellar.slots (c : Cellar) : Nat := (c.base.extractLsb' 0 8).toNat + 1

/-- A dump's clear text from 0x100 on: its particulars, the state block, the Larder, the pool (R326, R327). -/
def Dump.text (d : Dump) : List Byte :=
  contextName d.launch d.snap d.core d.ctx ++ leBytes 4 d.cause ++ leBytes 8 d.detail.toNat ++ leBytes 8 d.pcc ++
  leBytes 8 d.pc.toNat ++ leBytes 8 d.sclk.toNat ++ leBytes 8 d.events.toNat ++ leBytes 8 d.others.toNat ++
  leBytes 8 d.cmdPc.toNat ++ leBytes 3768 0 ++ stateBlock d.snap d.core d.launch d.pcc d.snap.opc false ++
  larderBytes d.snap ++ poolBytes d.snap d.launch.nctx

/-- A dump slot's bytes (R326): header, encrypted text, signature. -/
def Dump.bytes (d : Dump) (c : Cellar) (draw : Nat) : List Byte :=
  let key := Config.dumpKey draw
  let nonce := Config.dumpNonce draw
  let av := c.keyctl.getLsbD 1
  let ad := leBytes 8 0x3330504D55444E47 ++ leBytes 4 1 ++ leBytes 4 0x392000 ++ leBytes 8 c.widx.toNat ++
    leBytes 1 d.part ++ leBytes 1 av.toNat ++ leBytes 6 0 ++ leBytes 12 nonce.toNat ++ leBytes 4 0
  let text := d.text
  let clear := ad ++ leBytes 16 (Config.gcmTag key nonce ad text).toNat ++
    leBytes 40 (Config.keyWrap (keyOf4 c.tenkey) key).toNat ++
    (if av then leBytes 40 (Config.keyWrap (keyOf4 c.audkey) key).toNat else leBytes 40 0) ++ leBytes 112 0
  let body := clear ++ pad 0x390F00 (Config.gcmCipher key nonce ad text)
  body ++ leBytes 4 3309 ++ leBytes 3309 (Config.identitySign (Config.shake256 body)).toNat ++ leBytes 783 0

/-- DUMP_WRITE: the first captured dump whose time has come is written to the partition's next Cellar slot, WIDX rises and
an MSI is sent; without a slot or a tenant key it is lost (R324 to R326). It gives way to others at background priority, and its
bytes across a boundary are counted (R345, R352). -/
def execDumpWrite (s : State) : Host.Outcome State Fault Refusal :=
  match s.dumps.find? fun d => decide (d.due ≤ s.pcc) with
  | none => .next s
  | some d =>
    let p := s.part d.part
    let c := p.cel
    let s1 := { s with dumps := s.dumps.erase d }
    if ¬c.keyctl.getLsbD 0 ∨ (c.widx - c.ridx).toNat = c.slots then
      .next (s1.setPart d.part { p with cel := { c with lost := c.lost + 1 } })
    else
      let slot := c.nextSlot
      let a := c.nextAt
      let n := farBytes (dieOf d.core) a dumpSize
      if s.givesWayAt d.part a dumpSize then .next s
      else
      let s2 := (s1.draw.2.physWrite d.part a (d.bytes c s.ctr)).count d.part (dieOf d.core) 0x10 n
      .next ((s2.setPart d.part { p with cel := { c with widx := c.widx + 1 } }).raiseIrq (.hart d.launch.hart 1 slot))

end Sys2Proof.Machine
end

