-- ==== Sys2Proof/Machine/Distance.lean ====
section
/-!
DEFINITION. The safe-point distance of a launch's code, as the loader computes it (R227, R228, R290): bundles on the paths between
safe points, the durations known for FLIP.W waits, loops multiplied by their bounds. What the spec leaves to the loader's reckoning
is settled in assumption 21.
-/
namespace Sys2Proof.Machine

/-! ## A routine's length (R202, R206 to R208, R227) -/

/-- A micro-routine followed with the index registers that are known: its micro-address, the registers (none: unknown) each with
whether MSETX gave its value, the open loops, the sparsity switch, the tiles opened, and the cycles so far. -/
structure MicroWalk where
  upc : Nat
  mx : SMap (Option Nat × Bool) := []
  loops : List MicroLoop := []
  spr : Bool := false
  open_ : Nat := 0
  cycles : Nat := 8
  deriving DecidableEq, Repr

/-- A known index register; none where its value comes from an mp register. -/
def MicroWalk.get (w : MicroWalk) (d : BitVec 3) : Option Nat := (SMap.get (some 0, false) w.mx d.toNat).1
/-- A micro-loop's count, known only where it comes from MSETX (R227). -/
def MicroWalk.count (w : MicroWalk) (d : BitVec 3) : Option Nat :=
  if (SMap.get (some 0, false) w.mx d.toNat).2 then w.get d else none
/-- The walk moved on to a micro-address, with the cycles taken. -/
def MicroWalk.to (w : MicroWalk) (a n : Nat) : MicroWalk := { w with upc := a, cycles := w.cycles + n }
/-- The walk with an index register set. -/
def MicroWalk.set (w : MicroWalk) (d : BitVec 3) (v : Option Nat) (setx : Bool) : MicroWalk :=
  { w with mx := w.mx.put d.toNat (v, setx) }.to (w.upc + 1) 1

/-- One micro-operation followed: the routine's length at its MEND, or the walk after it; none where the length is not known.
cfg: the engine's configuration, none where it is not known. -/
def MicroWalk.step (w : MicroWalk) (cfg : Option W64) (m : MicroOp) : Option (Nat ⊕ MicroWalk) :=
  let next := fun (n : Nat) => some (.inr (w.to (w.upc + 1) n))
  match m with
  | .mend => some (.inl (w.cycles + max 1 (4 * w.open_)))
  | .msela _ => next 8
  | .mselb _ => next 8
  | .mldx d _ _ => some (.inr (w.set d none false))
  | .msetx d i => some (.inr (w.set d (some i.toNat) true))
  | .maddx d i => some (.inr (w.set d ((w.get d).map fun v => (v + i.toNat) % 65536) false))
  | .mloop d e =>
    match w.count d with
    | none => none
    | some 0 => some (.inr (w.to (e.toNat + 1) 1))
    | some n => some (.inr ({ w with loops := { body := w.upc + 1, stop := e.toNat, count := n } :: w.loops }.to (w.upc + 1) 1))
  | .mnext =>
    match w.loops with
    | [] => none
    | l :: rest =>
      if 1 < l.count then some (.inr ({ w with loops := { l with count := l.count - 1 } :: rest }.to l.body 1))
      else some (.inr ({ w with loops := rest }.to (w.upc + 1) 1))
  | .macc _ _ _ => some (.inr ({ w with open_ := w.open_ + 1 }.to (w.upc + 1) 1))
  | .mmac _ _ _ _ dl =>
    match w.get dl, cfg with
    | some l, some c => next (macCost c l w.spr)
    | _, _ => none
  | .mspr on => some (.inr ({ w with spr := on }.to (w.upc + 1) 1))
  | .mbz d t =>
    match w.get d with
    | none => none
    | some 0 => some (.inr (w.to t.toNat 1))
    | some _ => next 1
  | .mjmp t => some (.inr (w.to t.toNat 1))
  | .mwait n => next (n.toNat + 1)
  | .mblk _ => next 1
  | .mnop => next 1

/-- A routine followed to its MEND, of at most so many micro-operations (R202). -/
def MicroWalk.run (store : SMap W32) (cfg : Option W64) : Nat → MicroWalk → Option Nat
  | 0, _ => none
  | n + 1, w =>
    match (decodeMicroOp (SMap.get 0 store w.upc)).bind (w.step cfg) with
    | none => none
    | some (.inl d) => some d
    | some (.inr v) => MicroWalk.run store cfg n v

/-- D of a routine of an engine's image; none where it is not known (R227). -/
def routineLength (g : Engine) (cfg : Option W64) (r : Nat) : Option Nat :=
  let e := SMap.get (0 : BitVec 16) g.rtab r
  if e.getLsbD 15 then MicroWalk.run g.store cfg 65536 { upc := (e.extractLsb' 0 9).toNat } else none

/-! ## The code (R64, R80) -/

/-- A bundle of a code image, with its code address. -/
structure Placed where
  addr : W64
  b : Bundle
  deriving DecidableEq, Repr

/-- The bundles of a packet at an address. -/
def Packet.bundles (p : Packet) (a : W64) : List Placed :=
  ((List.range 10).filter fun i => Packet.start p i).map fun i =>
    { addr := a + BitVec.ofNat 64 i, b := Packet.bundle p (a + BitVec.ofNat 64 i) }
/-- The bundles of a chain of segments. -/
def State.codeOf (s : State) (part die : Nat) : Nat → W64 → List Placed
  | 0, _ => []
  | n + 1, va =>
    if va = 0 then []
    else
      let g := s.expand part die va
      (g.pkts.zipIdx.flatMap fun p => Packet.bundles p.1 (g.base + BitVec.ofNat 64 (32 * p.2))) ++ s.codeOf part die n g.next

/-- The triggers of a bundle, with their slots and words. -/
def Bundle.triggers (b : Bundle) : List (Nat × Word24 × SlotOp) :=
  b.slots.filterMap fun x =>
    match slotTarget (Cls.ofSlot x.1) (slotDst x.2) with
    | some (some op) => some (x.1, x.2, op)
    | _ => none
/-- A word's guard is p0, so that its slot always executes. -/
def alwaysRuns (w : Word24) : Bool := (Slot.ofWord w).gd.g == 0 && !(Slot.ofWord w).gd.n
/-- The word a trigger of a bundle carries, where every slot before it executes (R71). -/
def Bundle.carriedBy (b : Bundle) (j : Nat) (w : Word24) : Word24 :=
  let li := if b.hdr.s then b.li.dropLast else b.li
  (restAt j b.slots li).getD (isExtId (slotDst w)).toNat 0

/-! ## The reckoning -/

/-- What the check rests on: the launch, its code in address order, its engines' images. -/
structure PathEnv where
  l : Launch
  code : List Placed
  me0 : Engine
  me1 : Engine
  deriving DecidableEq, Repr

/-- Whether no bundle's slot names a destination. -/
def PathEnv.kept (v : PathEnv) (id : BitVec 9) : Bool := v.code.all fun p => p.b.slots.all fun x => slotDst x.2 != id
/-- The value a trigger moves, where it is a constant. -/
def Bundle.constant (b : Bundle) (w : Word24) : Option W64 :=
  let n := (Slot.ofWord w).src.toNat
  if 0x1C0 ≤ n then some (BitVec.ofInt 64 (Int.ofNat n - 0x1E0))
  else if n = 0x9B then (b.li[0]?).map (·.signExtend 64)
  else if n = 0x9C then (b.li[1]?).map (·.signExtend 64)
  else none
/-- The value a trigger moves, where it is known: a constant, or a launch argument that no bundle overwrites. -/
def PathEnv.arg (v : PathEnv) (b : Bundle) (w : Word24) : Option W64 :=
  let id := (Slot.ofWord w).src
  let n := id.toNat
  if n < 8 then if v.kept id then (v.l.lr.argS[n]?).map (·.setWidth 64) else none
  else if 0x40 ≤ n ∧ n < 0x44 then if v.kept id then v.l.lr.argA[n - 0x40]? else none
  else b.constant w

/-- The configurations an engine's MCFGs give, where all are known. -/
def PathEnv.cfgs (v : PathEnv) (e : Bool) : Option (List W64) :=
  (v.code.flatMap fun p => (p.b.triggers.filter fun t =>
    (match t.2.2 with | .mcfg => true | .mcfgExt => true | _ => false) && engOfDst (slotDst t.2.1) == e).map fun t =>
      v.arg p.b t.2.1).foldr (fun x l => match x, l with | some a, some r => some (a :: r) | _, _ => none) (some [])
/-- The longest D an MCALL may have, 0 where it is not known. -/
def PathEnv.callLength (v : PathEnv) (b : Bundle) (w : Word24) : Nat :=
  let e := engOfDst (slotDst w)
  let g := if e then v.me1 else v.me0
  match v.arg b w, v.cfgs e with
  | some r, some (c :: cs) => (c :: cs).foldl (fun n x => max n ((routineLength g (some x) (r.toNat % 64)).getD 0)) 0
  | some r, _ => (routineLength g none (r.toNat % 64)).getD 0
  | none, _ => 0

/-- Whether the phase that holds a bundle ends, in program order, with a waiting flip. -/
def PathEnv.waits (v : PathEnv) (a : W64) : Bool :=
  ((v.code.find? fun p => decide (a.toNat ≤ p.addr.toNat) && p.b.hdr.f).map fun p => p.b.hdr.w).getD false

/-- A duration in ninths of a ns: of core cycles at 0.9 GHz, of PCC cycles. -/
def coreTime (n : Nat) : Nat := 10 * n
def pccTime (n : Nat) : Nat := 3 * n

/-- The known durations of the waits a bundle begins (R228). -/
def PathEnv.pauses (v : PathEnv) (p : Placed) : Nat :=
  (p.b.triggers.map fun t =>
    match t.2.2 with
    | .mcall => if v.waits p.addr then coreTime (v.callLength p.b t.2.1) else 0
    | .mcallExt => if v.waits p.addr then coreTime (v.callLength p.b t.2.1) else 0
    | .evac => coreTime 28688
    | .evacExt => coreTime 28688
    | .lease => pccTime 6000
    | .leaseExt => pccTime 6000
    | _ => 0).sum
/-- What a safe point adds to the path that leaves it: a BAR's step length, where it names group 255 or its group is not known
(R290). -/
def Placed.leaving (p : Placed) : Nat :=
  (p.b.triggers.map fun t =>
    let n := pccTime (p.b.carriedBy t.1 t.2.1).toNat
    match t.2.2 with
    | .bar => if ((p.b.constant t.2.1).map fun g => g.toNat % 256 == 255).getD true then n else 0
    | .barExt => if ((p.b.constant t.2.1).map fun g => g.toNat % 256 == 255).getD true then n else 0
    | _ => 0).sum

/-- The bundle after the one at an address. -/
def PathEnv.after (v : PathEnv) (a : W64) : W64 := ((v.code.find? fun p => p.addr == a).map fun p => p.b.fall).getD 0

/-- A loop: its first and last bundle, its bound where it has one, and whether that is the count of its LOOP (R225, R290). -/
structure LoopRange where
  lo : Nat
  hi : Nat
  bound : Option Nat
  fixed : Bool := false
  deriving DecidableEq, Repr
/-- Whether an address lies in a loop. -/
def LoopRange.has (r : LoopRange) (a : Nat) : Bool := decide (r.lo ≤ a) && decide (a ≤ r.hi)
/-- The passes a loop is followed for: its bound; 2 where a loop with a safe point has none. A bound of .trips on a backward branch is taken
as the passes of the loop, as the count of 16_program_mlp_tile_power.md is made, where that of 15_program_ragged_layernorm.md makes one
more: DESIGN CHOICE, unsafe (assumption 21). -/
def LoopRange.passes (r : LoopRange) : Nat := r.bound.getD 2

/-- What a control trigger does to the path: the addresses it may go on at, whether the path always leaves there, the loop it
closes, the procedure it calls, and whether it returns. -/
structure PathEdge where
  goesTo : List W64 := []
  leaves : Bool := false
  loop : Option LoopRange := none
  calls : Option W64 := none
  returns : Bool := false
  deriving DecidableEq, Repr

/-- The bound declared for the loop of a bundle (R225). -/
def PathEnv.trips (v : PathEnv) (a : W64) : Option Nat := (v.l.obj.trips.find? fun t => t.1 == a).map (·.2)
/-- A branch: a backward one closes a loop. -/
def PathEnv.branch (v : PathEnv) (p : Placed) (always : Bool) (target : Option W64) : PathEdge :=
  match target with
  | none => { leaves := always }
  | some t =>
    { goesTo := [t], leaves := always,
      loop := if t.toNat ≤ p.addr.toNat then some { lo := t.toNat, hi := p.addr.toNat, bound := v.trips p.addr } else none }
/-- A call: of a procedure whose address is known, else one whose path is not followed. -/
def callEdge (always : Bool) (target : Option W64) : PathEdge :=
  match target with
  | some t => { leaves := always, calls := some t }
  | none => {}
/-- The edge of a trigger (R121 to R126, R134). -/
def PathEnv.edge (v : PathEnv) (p : Placed) (t : Nat × Word24 × SlotOp) : PathEdge :=
  let always := alwaysRuns t.2.1
  let c := p.b.constant t.2.1
  let rel := c.map fun x => relTarget p.addr (x.setWidth 32)
  let loop : PathEdge :=
    let stop := relTarget p.addr ((p.b.carriedBy t.1 t.2.1).signExtend 32)
    let count := c.map fun x => (x.setWidth 32 : W32).toNat
    { goesTo := if count.getD 0 = 0 then [v.after stop] else [], leaves := always && count == some 0,
      loop := some { lo := p.b.fall.toNat, hi := stop.toNat, bound := count.or (v.trips p.addr), fixed := count.isSome } }
  match t.2.2 with
  | .br => v.branch p always rel
  | .brExt => v.branch p always rel
  | .bri => v.branch p always c
  | .briExt => v.branch p always c
  | .lexit => v.branch p always rel
  | .lexitExt => v.branch p always rel
  | .call => callEdge always rel
  | .callExt => callEdge always rel
  | .calli => callEdge always c
  | .calliExt => callEdge always c
  | .ret => { leaves := always, returns := true }
  | .retExt => { leaves := always, returns := true }
  | .halt => { leaves := always }
  | .haltExt => { leaves := always }
  | .loop => loop
  | .loopExt => loop
  | _ => {}

/-- The larger of two lengths, either of which may be none. -/
def maxLen (a : Option Nat) (b : Nat) : Option Nat := some (max (a.getD 0) b)

/-- A procedure's paths (R228): the longest from its entry to its return without a safe point, from its entry to a safe point, from a
safe point to its return, and of all. -/
structure PathSum where
  through : Option Nat := none
  head : Option Nat := none
  tail : Option Nat := none
  worst : Nat := 0
  deriving DecidableEq, Repr

/-- A bundle as the reckoning passes it: its cycle, the durations of the waits it begins, whether it is a safe point and what it then
adds beside its cycle to the path that leaves it, where the path may go on, the procedure it calls with the return address, and
whether it returns. -/
structure PathNode where
  addr : Nat
  cycle : Nat
  pauses : Nat
  safe : Bool
  leaving : Nat
  goesTo : List Nat
  calls : Option Nat
  back : Nat
  returns : Bool
  deriving DecidableEq, Repr

/-- A loop with the longest pass of it without a safe point, where there is one. -/
structure LoopPass where
  r : LoopRange
  once : Option Nat
  deriving DecidableEq, Repr

/-- The longest arrival at an address: from the procedure's entry without a safe point, or from a safe point; of the loops around the
address, those whose passes it has counted. -/
structure PathAt where
  addr : Nat
  ent : Bool
  spent : List (Nat × Nat) := []
  d : Nat
  deriving DecidableEq, Repr

/-- The arrivals, the paths completed, and, of a loop's pass, the longest that has reached its end. -/
structure PathRun where
  at_ : List PathAt
  sum : PathSum := {}
  closing : Option Nat := none
  deriving DecidableEq, Repr

/-- A move of an arrival to an address, from another or from outside (R228): where it enters a loop, all passes but its last are counted,
each at the longest; the edge back of a loop that was entered elsewhere, or left from a safe point in it, is taken once, and counts all
passes but two. None where the passes of the loop have been counted. How often a path round a loop that holds a safe point is taken is a
DESIGN CHOICE, unsafe (assumption 21). -/
def PathAt.move (x : PathAt) (loops : List LoopPass) (src : Option Nat) (t : Nat) : Option PathAt :=
  (loops.filter fun l => l.r.lo == t).foldl (fun o l => o.bind fun (x : PathAt) =>
    let count := fun (n : Nat) => some { x with d := x.d + n * l.once.getD 0, spent := (l.r.lo, l.r.hi) :: x.spent }
    match src with
    | none => count (l.r.passes - 1)
    | some a =>
      if !l.r.has a then count (l.r.passes - 1)
      else if a ≠ l.r.hi then some x
      else if x.spent.contains (l.r.lo, l.r.hi) || (l.r.fixed && decide (l.r.passes ≤ 1)) then none
      else count (l.r.passes - 2))
    (some { x with addr := t, spent := x.spent.filter fun k => decide (k.1 ≤ t) && decide (t ≤ k.2) })

/-- An arrival noted: the longest of its kind. -/
def PathRun.note (a : PathRun) (x : PathAt) : PathRun :=
  match a.at_.find? fun y => y.addr == x.addr && y.ent == x.ent && y.spent == x.spent with
  | some y => if x.d ≤ y.d then a else { a with at_ := x :: a.at_.erase y }
  | none => { a with at_ := x :: a.at_ }
/-- A path of a length completed, and one that ends at a safe point. -/
def PathRun.length (a : PathRun) (d : Nat) : PathRun := { a with sum := { a.sum with worst := max a.sum.worst d } }
def PathRun.ends (a : PathRun) (ent : Bool) (d : Nat) : PathRun :=
  if ent then { a with sum := { a.sum with head := maxLen a.sum.head d } }.length d else a.length d
/-- A return. -/
def PathRun.exits (a : PathRun) (ent : Bool) (d : Nat) : PathRun :=
  if ent then { a with sum := { a.sum with through := maxLen a.sum.through d } } else { a with sum := { a.sum with tail := maxLen a.sum.tail d } }

/-- What the reckoning passes bundles with: the procedures' paths, the loops, and, for a pass of a loop, that loop. -/
structure PathMap where
  tab : SMap PathSum
  loops : List LoopPass
  only : Option LoopRange := none
  deriving DecidableEq, Repr

/-- An arrival moved on to an address; a pass of a loop stays within it. -/
def PathRun.goTo (a : PathRun) (m : PathMap) (src t : Nat) (x : PathAt) : PathRun :=
  let within := match m.only with
    | some r => r.has t && !(src == r.hi && t == r.lo)
    | none => true
  if within then ((x.move m.loops (some src) t).map a.note).getD a else a
/-- A call of a procedure with these paths. -/
def PathRun.enters (a : PathRun) (m : PathMap) (n : PathNode) (x : PathAt) (c : PathSum) : PathRun :=
  let a1 := (c.head.map fun h => a.ends x.ent (x.d + h)).getD a
  let a2 := (c.through.map fun t => a1.goTo m n.addr n.back { x with d := x.d + t }).getD a1
  let a3 := if m.only.isSome then a2
    else (c.tail.map fun t => a2.goTo m n.addr n.back { addr := n.addr, ent := false, d := t }).getD a2
  a3.length c.worst

/-- A bundle passed by an arrival. A path that ends at a safe point takes in the waits that come before its flip; the bundle's own cycle
counts to the path that leaves it (R228). -/
def PathNode.arrive (n : PathNode) (m : PathMap) (a : PathRun) (x : PathAt) : PathRun :=
  let e := x.d + n.cycle + n.pauses
  let a0 := if n.safe then a.ends x.ent (x.d + n.pauses) else a.length e
  if n.safe && m.only.isSome then a0
  else
    let y : PathAt := if n.safe then { addr := n.addr, ent := false, d := n.cycle + n.leaving } else { x with d := e }
    let a1 := match m.only with
      | some r => if n.addr = r.hi then { a0 with closing := maxLen a0.closing e } else a0
      | none => a0
    let a2 := n.goesTo.foldl (fun a t => a.goTo m n.addr t y) a1
    let a3 := if n.returns then a2.exits y.ent y.d else a2
    match n.calls with
    | some t => a3.enters m n y (SMap.get {} m.tab t)
    | none => a3
/-- A bundle passed by all that have arrived. -/
def PathNode.pass (n : PathNode) (m : PathMap) (a : PathRun) : PathRun :=
  (a.at_.filter fun x => x.addr == n.addr).foldl (fun a x => n.arrive m a x) a
/-- Every bundle passed in address order, so many times. -/
def passes (nodes : List PathNode) (m : PathMap) : Nat → PathRun → PathRun
  | 0, a => a
  | k + 1, a => passes nodes m k (nodes.foldl (fun a n => n.pass m a) a)

/-- The loops of a launch's code, inner ones first, and the procedures its calls name. -/
def PathEnv.loops (v : PathEnv) : List LoopRange :=
  sortBy (fun (a b : LoopRange) => decide (a.hi - a.lo ≤ b.hi - b.lo)) (v.code.flatMap fun p => p.b.triggers.filterMap fun t => (v.edge p t).loop)
def PathEnv.procs (v : PathEnv) : List Nat :=
  (v.code.flatMap fun p => p.b.triggers.filterMap fun t => (v.edge p t).calls.map (·.toNat)).eraseDups
/-- Whether a loop contains no safe point, of its own or of a procedure that it calls. -/
def PathEnv.closed (v : PathEnv) (tab : SMap PathSum) (r : LoopRange) : Bool :=
  !v.code.any fun p => r.has p.addr.toNat &&
    (p.b.hdr.s || p.b.triggers.any fun t => match (v.edge p t).calls with
      | some c => (SMap.get ({} : PathSum) tab c.toNat).head.isSome
      | none => false)

/-- The nodes of a launch's code in address order. -/
def PathEnv.nodes (v : PathEnv) : List PathNode :=
  v.code.map fun p =>
    let a := p.addr.toNat
    let edges := p.b.triggers.map (v.edge p)
    let ends := (v.loops.filter fun r => r.hi == a).map (·.lo)
    let dests := (edges.flatMap fun e => e.goesTo.map (·.toNat)) ++ ends ++ (if edges.any (·.leaves) then [] else [p.b.fall.toNat])
    { addr := a, cycle := coreTime 1, pauses := v.pauses p, safe := p.b.hdr.s, leaving := p.leaving, goesTo := dests.eraseDups,
      calls := edges.findSome? fun e => e.calls.map (·.toNat), back := p.b.fall.toNat, returns := edges.any (·.returns) }

/-- Every loop with its longest pass, those within it counted. -/
def PathEnv.loopPasses (v : PathEnv) (nodes : List PathNode) (tab : SMap PathSum) : List LoopPass :=
  v.loops.foldl (fun (l : List LoopPass) r =>
    if l.any fun x => x.r.lo == r.lo && x.r.hi == r.hi then l
    else
      let m : PathMap := { tab := tab, loops := l, only := some r }
      let start := ({ addr := r.lo, ent := true, d := 0 } : PathAt).move l none r.lo
      l ++ [{ r := r, once := (passes (nodes.filter fun n => r.has n.addr) m (l.length + 1) { at_ := start.toList }).closing }]) []

/-- The paths from an entry, with those of the procedures called. -/
def PathEnv.paths (v : PathEnv) (tab : SMap PathSum) (entry : Nat) : PathSum :=
  let nodes := v.nodes
  let loops := v.loopPasses nodes tab
  let start := ({ addr := entry, ent := true, d := 0 } : PathAt).move loops none entry
  (passes nodes { tab := tab, loops := loops } (loops.length + 1) { at_ := start.toList }).sum
/-- The paths of the procedures, calls nested so deep followed. -/
def PathEnv.table (v : PathEnv) : Nat → SMap PathSum
  | 0 => []
  | n + 1 =>
    let t := v.table n
    v.procs.map fun e => (e, v.paths t e)

/-- The longest path between safe points from an entry, in ninths of a ns; none where a loop without a safe point has no bound
(R290). -/
def PathEnv.distance (v : PathEnv) (entry : W64) : Option Nat :=
  let tab := v.table v.procs.length
  if v.loops.any fun r => v.closed tab r && r.bound.isNone then none else some (v.paths tab entry.toNat).worst

/-- A partition's safe-point bound in ns (R337). -/
def PartRec.safeBound (r : PartRec) : Nat := if r.safeb = 0 then 50000 else r.safeb.toNat
/-- Whether a launch's safe-point distance passes its partition's bound, from the records, the code, the microprogram image and the
trip bounds of its object (R228, R290). -/
def State.distanceOver (s : State) (l : Launch) (me0 me1 : Engine) (die : Nat) : Bool :=
  let code := sortBy (fun (x y : Placed) => decide (x.addr.toNat ≤ y.addr.toNat)) (s.codeOf l.part die 65536 l.lr.code)
  let v : PathEnv := { l := l, code := code, me0 := me0, me1 := me1 }
  match v.distance l.lr.entry with
  | none => true
  | some d => decide (9 * (s.part l.part).pr.safeBound < d)

end Sys2Proof.Machine
end

