-- ==== Sys2Proof/Machine/Restore.lean ====
section
/-!
DEFINITION. The reading back of a save area (R306, R327, R328): each field whose place the spec states is taken from the area's
bytes; the parts whose layout it does not state are those that were saved, where their bytes still stand (assumption 73).
-/
namespace Sys2Proof.Machine

/-- A little-endian field of a block. -/
def fieldAt (b : List Byte) (o n : Nat) : Nat := leNat ((b.drop o).take n)

/-! ## A context record (R328) -/

/-- A state's code (R184). -/
def statusOf (n : Nat) : Option CtxStatus :=
  [CtxStatus.absent, .ready, .blocked, .awaiting, .inService, .halted, .stopped].find? fun c => c.code == n
/-- A loop level's 24 bytes; none where its count is 0. -/
def loopAt (b : List Byte) (o : Nat) : Option LoopLevel :=
  let n := fieldAt b o 4
  if n = 0 then none
  else some { count := BitVec.ofNat 32 n, start := BitVec.ofNat 64 (fieldAt b (o + 8) 8), stop := BitVec.ofNat 64 (fieldAt b (o + 16) 8) }
/-- Register i's faces from a list of face pairs of n bytes, its written bit from a number. -/
def faceAt {w : Nat} (b : List Byte) (o n wr base i : Nat) (old : Face (BitVec w)) : Face (BitVec w) :=
  { old with vis := BitVec.ofNat w (fieldAt b (o + 2 * n * i) n), hid := BitVec.ofNat w (fieldAt b (o + 2 * n * i + n) n),
             wr := wr.testBit (base + i) }
/-- A map of registers from their faces. -/
def facesAt {α : Type} (n : Nat) (f : Nat → Face α) : SMap (Face α) := (List.range n).map fun i => (i, f i)

/-- A word of FLG from a record: bits [31:8] read zero (R19). -/
def flgAt (b : List Byte) (o : Nat) : W32 := BitVec.ofNat 32 (fieldAt b o 1)
/-- Both values of a register changed. -/
def Face.map {α : Type} (f : Face α) (g : α → α) : Face α := { f with vis := g f.vis, hid := g f.hid }
/-- A context's registers from its record, and from the mapped rows of the pool (R28); bits that read zero do so whatever the
record holds, and an am register a magnitude (R14, R15, R19). -/
def RegFile.readBack (r : RegFile) (b pool : List Byte) (c tiles : Nat) : RegFile :=
  let wr := fieldAt b 0x90 32
  let sel := fieldAt b 0x58 8
  let tags := fun (o i : Nat) => fieldAt b (o + i) 1
  let row := fun (l n : Nat) => leNat ((pool.drop (256 * l)).take (256 * n))
  let vec := fun (i : Nat) =>
    let x : TVal := { val := BitVec.ofNat 2048 (row (vecRow c i) 1), tag := BitVec.ofNat 4 (tags 0x60 i % 16) }
    let y : TVal := { val := BitVec.ofNat 2048 (row (vecRow c i + 1) 1), tag := BitVec.ofNat 4 (tags 0x60 i / 16) }
    let sw := sel.testBit i
    ({ vis := if sw then { y with tag := x.tag } else x, hid := if sw then { x with tag := y.tag } else y, wr := wr.testBit (80 + i), sw := sw } : Face TVal)
  let tile := fun (i : Nat) =>
    let p := row (tileRow0 c tiles i) 64
    let q := row (tileRow0 c tiles i + 64) 64
    let sw := sel.testBit (32 + i)
    ({ vis := { val := BitVec.ofNat _ (if sw then q else p), tag := BitVec.ofNat 4 (tags 0x80 i % 16) },
       hid := { val := BitVec.ofNat _ (if sw then p else q), tag := BitVec.ofNat 4 (tags 0x80 i / 16) },
       wr := wr.testBit (145 + i), sw := sw } : Face TileVal)
  let p := fieldAt b 0x3C0 4
  { s := facesAt 64 fun i => faceAt b 0xC0 4 wr 0 i (r.getS i), a := facesAt 16 fun i => faceAt b 0x2C0 8 wr 64 i (r.getA i),
    v := facesAt 32 vec,
    p := facesAt 16 fun i => { SMap.get { vis := false, hid := false } r.p i with vis := p.testBit i, hid := p.testBit (16 + i),
                                                                                  wr := wr.testBit (112 + i) },
    m := facesAt 8 fun i => faceAt b 0x3D0 32 wr 128 i (r.getM i),
    nt := facesAt 4 fun i => (faceAt b 0x5D0 8 wr 136 i (r.getNt i)).map ntMask,
    am := facesAt 4 fun i => (faceAt b 0x610 4 wr 140 i (r.getAm i)).map amClamp, acc := facesAt tiles tile,
    flg := { vis := flgAt b 0xB0, hid := flgAt b 0xB4, wr := wr.testBit 144, acc := flgAt b 0xB8, clr := flgAt b 0xBC },
    grp := (List.range 4).map fun i => (i, BitVec.ofNat 8 (fieldAt b (0x3C4 + i) 1)) }

/-- The result ports from a record. -/
def portsAt (b : List Byte) : SMap TVal :=
  [(0x90, plainAt 0x630 4), (0x91, plainAt 0x634 4), (0x92, plainAt 0x638 8)] ++
    ((List.range 7).map fun i => (0x93 + i,
      { val := BitVec.ofNat 2048 (fieldAt b (0x700 + 256 * i) 256), tag := BitVec.ofNat 4 (fieldAt b (0x6C0 + i) 1) })) ++
    [(0x9A, plainAt 0x640 8)]
where plainAt (o n : Nat) : TVal := { val := BitVec.ofNat 2048 (fieldAt b o n), tag := 0 }

/-- A context from its record. -/
def Ctx.readBack (x : Ctx) (b pool : List Byte) (c tiles : Nat) : Ctx :=
  let w := fieldAt b 0x48 8
  let loops := ([loopAt b 0x18, loopAt b 0x30].filterMap id).reverse
  let a := { x.cur with
    pc := BitVec.ofNat 64 (fieldAt b 0 8), mpc := BitVec.ofNat 64 (fieldAt b 8 8), sclk := BitVec.ofNat 64 (fieldAt b 16 8),
    loops := loops, nti := BitVec.ofNat _ w, bind := BitVec.ofNat _ (w / 16), ports := portsAt b,
    regs := x.cur.regs.readBack b pool c tiles }
  let t := fieldAt b 0x50 8
  { x with cur := a, start := a, status := (statusOf (w / 256 % 16)).getD x.status,
           entry := if w.testBit 12 then some (x.entry.getD {}) else none, timerReq := w.testBit 13,
           timer := if t = 0 then none else some t }

/-! ## A core block (R306, R327) -/

/-- A microprogram store from its image form (R286). -/
def Engine.readStore (g : Engine) (b : List Byte) : Engine :=
  { g with rtab := (List.range 64).map fun i => (i, BitVec.ofNat 16 (fieldAt b (2 * i) 2)),
           store := (List.range 512).map fun i => (i, BitVec.ofNat 32 (fieldAt b (128 + 4 * i) 4)) }
/-- A cycle-class table (R334). -/
def Engine.readLines (g : Engine) (b : List Byte) : Engine :=
  let line := fun (i : Nat) => ({ addr := BitVec.ofNat 64 (fieldAt b (40 * i) 8),
                                  counts := (List.range 5).map fun j => fieldAt b (40 * i + 8 + 6 * j) 6 } : CycleLine)
  { g with lines := ((List.range 65).map line).filter fun l => l.addr != 0 || l.counts.any (· != 0), idle := fieldAt b 2600 8 }
/-- The decode tables: those saved, and those whose bytes are not zero (R177). -/
def tablesAt (old : SMap (List Nat)) (b : List Byte) : SMap (List Nat) :=
  (List.range 16).filterMap fun i =>
    let t := (b.drop (128 * i)).take 128
    if (SMap.find old i).isNone && t.all (· == 0) then none
    else some (i, t.flatMap fun x => [x.toNat % 16, x.toNat / 16])
/-- The lease in a state block's header: its remaining cycles and its holder (R350). -/
def leaseAt (old : Option Lease) (b : List Byte) : Option Lease :=
  let h := fieldAt b 32 1
  if h.testBit 7 then some { (old.getD { ctx := 0, left := 0, granted := 0, debit := 0 }) with left := fieldAt b 24 8, ctx := h % 8 }
  else none

/-- What the parts of a block without a stated layout give where their bytes are no longer those of the save: a free value. -/
opaque alteredOpen : Core → List Byte → Core

/-- A saved core from its block's bytes; sv: the core as it was saved (R306). -/
def Core.readBack (sv : Core) (l : Launch) (b : List Byte) : Core :=
  let o := (b.drop 0x7100).take 0x3F00
  let k := if o = openBlock sv l then sv else alteredOpen sv o
  let w := l.lr.ppw
  let pool := b.drop 0x90000
  let tiles := accTiles w l.nctx
  let users := (k.ctxs.filter fun x => x.1 != handlerCtx).map fun x =>
    (x.1, if x.1 < 4 then x.2.readBack ((b.drop (256 + 7168 * x.1)).take 7168) pool x.1 tiles else x.2)
  let at_ := fun (n : Nat) => b.drop n
  { k with ctxs := users ++ k.ctxs.filter fun x => x.1 == handlerCtx,
           scratch := Memory.writeBytes [] 0 ((pool.drop (65536 + 2048 * ppwAcc w)).take (2048 * ppwScr w)),
           larder := Memory.writeBytes [] 0 ((b.drop 0x10000).take 524288),
           tr := { k.tr with ring := (List.range 512).map fun i => (i, BitVec.ofNat 64 (fieldAt b (0xB000 + 8 * i) 8)),
                             widx := BitVec.ofNat 32 (fieldAt b 20 4) },
           me0 := (k.me0.readStore (at_ 0xC000)).readLines (at_ 0xD900),
           me1 := (k.me1.readStore (at_ 0xC880)).readLines (at_ 0xE330),
           ce := { k.ce with tables := tablesAt k.ce.tables (at_ 0xD100) }, lease := leaseAt k.lease b }

/-! ## The launch block (R306) -/

/-- The largest step length an episode's members have declared (R297). -/
def Episode.stepOf (e : Episode) : Nat := e.arrived.foldl (fun n m => max n m.2) 0
/-- An episode with another largest step length. -/
def Episode.withStep (e : Episode) (n : Nat) : Episode :=
  if e.stepOf = n then e else { arrived := e.arrived.map fun m => (m.1, n) }

/-- A saved launch from its block's bytes; what the block does not hold stays. -/
def Launch.readBack (l : Launch) (record : List Byte → LaunchRec) (b : List Byte) : Launch :=
  let n := fieldAt b 0x1000 4
  let group := fun (i : Nat) => let e := fieldAt b (0x1004 + 4 * i) 4; (e % 256, e / 256 % 1024, e / 2 ^ 18 % 4)
  { l with lr := record (b.take 256), saveP := fieldAt b 0x100 8,
           cores := (List.range (min 576 (fieldAt b 0x108 2))).map fun i => fieldAt b (0x110 + 2 * i) 2,
           episodes := l.episodes.mapVal fun g (e : Episode) => e.withStep (fieldAt b (0x600 + 8 * g) 8 / 2 ^ 28 % 2 ^ 32),
           disp := (List.range 3).map fun d => (d, (fieldAt b (0xE00 + 16 * d) 4, fieldAt b (0xE04 + 16 * d) 4)),
           widx := BitVec.ofNat 64 (fieldAt b 0xE30 8), drops := fieldAt b 0xE38 8,
           groups := (List.range (min n 9216)).map group }

/-! ## The area -/

/-- Bytes of a launch's save: at SAVE under the partition's translation, or in a migration area; none where a page does not
translate (R306, R353). -/
def State.saveBytes (s : State) (l : Launch) (die o n : Nat) : Option (List Byte) :=
  match l.area with
  | some a => some (s.mem.readBytes (a + o) n)
  | none => (s.vread l.part die (l.lr.save + BitVec.ofNat 64 o) n).toOption
/-- Bytes of a core block that a save writes: the state block, the Larder, the mapped rows. -/
def Launch.blockSize (l : Launch) : Nat := 0x90000 + 256 * ppwRows l.lr.ppw
/-- A saved launch with its cores as its save area gives them; none where the area does not translate. -/
def State.readSave (s : State) (l : Launch) (die : Nat) (record : List Byte → LaunchRec) : Option Launch :=
  match s.saveBytes l die 0 0xA004 with
  | none => none
  | some b =>
    let l1 := l.readBack record b
    (l.saved.zipIdx.foldr (fun x (acc : Option (List Core)) =>
      match acc, s.saveBytes l die (65536 + 4194304 * x.2) l.blockSize with
      | some ks, some c => some (x.1.readBack l c :: ks)
      | _, _ => none) (some [])).map fun ks => { l1 with saved := ks }

end Sys2Proof.Machine
end

