-- ==== Sys2Proof/Machine/Launch.lean ====
section
/-!
DEFINITION. The launch unit: records and their checks (R27, R284 to R290, R351), relocation (R226, R292), placement and resume
(R29, R35, R239, R291, R294, R308), cancellation (R292), barriers and communication steps (R180, R296 to R299), next-tile dispensers (R300,
R301), pre-emption and saves (R36, R305 to R307), completion (R288, R293).
-/
namespace Sys2Proof.Machine

/-! ## Launch records (R284, R285) -/

/-- The record's fields from its 256 bytes. -/
def readRecord (addr : W64) (l : List Byte) : LaunchRec :=
  let w := fun o n => leNat ((l.drop o).take n)
  let d := fun o => BitVec.ofNat 64 (w o 8)
  let u := fun o => BitVec.ofNat 32 (w o 4)
  { addr := addr, raw := l, entry := d 0, ppw := u 8, ctrl := u 0x10, code := d 0x18, gtab := d 0x20, micro := d 0x28,
    live := d 0x30, nlive := u 0x38, tiles := d 0x40, data := d 0x48, dlen := u 0x50, cset := d 0x58,
    prereq := (List.range 4).map fun i => u (0x60 + 4 * i), resume := d 0x70, notify := d 0x78,
    argS := (List.range 8).map fun i => u (0x80 + 4 * i), argA := (List.range 4).map fun i => d (0xA0 + 8 * i), save := d 0xC0 }
/-- A record's tag. -/
def recordTag (l : List Byte) : W32 := BitVec.ofNat 32 (leNat ((l.drop 12).take 4))
/-- Reserved fields zero, the tag not zero, NLIVE in range (R284, R285). -/
def recordOk (l : List Byte) (r : LaunchRec) : Bool :=
  let zero := fun o n => leNat ((l.drop o).take n) == 0
  zero 0x14 4 && zero 0x3C 4 && zero 0x54 4 && zero 0xC8 56 && recordTag l != 0 && r.ctrl.extractLsb' 10 22 == 0 &&
    r.tiles.extractLsb' 48 16 == 0 && decide (r.nlive.toNat ≤ 65536)

/-- The lowest die on which a partition has cores; the launch unit's accesses use its translation block. -/
def State.homeDie (s : State) (part : Nat) : Nat :=
  ((List.range 3).find? fun d => decide (0 < (s.part part).coresOn d)).getD 0

/-! ## Completions (R288, R289) -/

/-- A launch ended with a status: its completion is held for the ring, its tag recorded, the launch removed. -/
def State.complete (s : State) (l : Launch) (status : Nat) : State :=
  let p := s.part l.part
  let c : Completion := { tag := l.tag, status := status, pcc := s.pcc, hart := l.hart }
  let last := p.cplLast ++ [(l.tag, status)]
  ({ s with launches := s.launches.filter fun x => !(x.part == l.part && x.tag == l.tag) }).setPart l.part
    { p with cplHeld := p.cplHeld ++ [c], cplLast := last.drop (last.length - 256) }

/-- A completion of a record that was not queued (R288). -/
def State.refuse (s : State) (part : Nat) (tag : W32) (hart status : Nat) : State :=
  let p := s.part part
  let c : Completion := { tag := tag, status := status, pcc := s.pcc, hart := hart }
  let last := p.cplLast ++ [(tag, status)]
  s.setPart part { p with cplHeld := p.cplHeld ++ [c], cplLast := last.drop (last.length - 256) }

/-- COMPLETION_RING_WRITE: the oldest completion held is written when fewer than 256 entries are unread, and an MSI is sent
(R288). It waits while the ring's page does not translate, and gives way to others at background priority, behind the records of its
partition that wait so (R272, R345). -/
def execCompletionRingWrite (s : State) : Host.Outcome State Fault Refusal :=
  let part := s.frame.cur.part
  let p := s.part part
  match p.cplHeld with
  | [] => .next s
  | c :: rest =>
    if 256 ≤ p.cplCount - p.cplRead then .next s
    else
      let a := (p.lqcpl &&& ~~~0xFFF) + BitVec.ofNat 64 (16 * (p.cplCount % 256))
      let bytes := leBytes 4 c.tag.toNat ++ leBytes 1 c.status ++ leBytes 3 0 ++ leBytes 8 c.pcc
      if s.isHeld part || s.givesWayOn part (s.homeDie part) a 16 then .next s
      else
      match s.unitWrite part (s.homeDie part) a bytes with
      | .error _ => .next s
      | .ok s1 =>
        .next ((s1.setPart part { s1.part part with cplHeld := rest, cplCount := p.cplCount + 1 }).raiseIrq
          (.hart c.hart 0 (p.cplCount % 256)))

/-! ## LQPUSH and LQCANCEL (R287, R288, R292) -/

/-- LQSTAT: the launches queued and placed (R287). -/
def State.lqstat (s : State) (part : Nat) : W64 :=
  let n := fun (f : Launch → Bool) => (s.launches.filter fun l => l.part == part && f l).length
  BitVec.ofNat 64 (n (·.status != .placed) % 128 + 256 * (n (·.status == .placed) % 256))

/-- A record that LQPUSH has named waits to be read (R345). -/
def State.pushWaits (s : State) (part : Nat) : Bool := s.isBg part && s.inbox.any fun x =>
  match x.2 with
  | .exec cur (.lqpush _) => cur.part == part && decide (s.pcc < x.1)
  | _ => false

/-- LQPUSH: the register takes the address, and the record is read and queued, with the object the loader has been given for it; 64 launches queued
refuse it with status 9; an unlocked feature set, a tag in use or a record that cannot be read with status 1 (R226, R287, R288, R290,
R351). Ignored during a reset (R343) and at a reserved page (R375). At background priority the record's read waits for its channel,
behind those of its partition that wait so (R272, R345). -/
def execLqpush (v : W64) (s0 : State) : Host.Outcome State Fault Refusal :=
  let part := s0.frame.cur.part
  let hart := s0.frame.cur.hart
  let p := s0.part part
  let addr := v &&& ~~~0xFF
  if p.resetting || reservedPage part then .next s0
  else
    let s := s0.setPart part { p with lqpush := addr }
    if s.pushWaits part || s.givesWayOn part (s.homeDie part) addr 256 then .next (s.later (s.pcc + 1) s.frame.cur (.lqpush v))
    else
    match s.unitRead part (s.homeDie part) addr 256 with
    | .error _ => .next (s.refuse part 0 hart 1)
    | .ok (l, s) =>
      let tag := recordTag l
      let mine := s.launches.filter fun x => x.part == part
      if 64 ≤ (mine.filter fun x => x.status != .placed).length then .next (s.refuse part tag hart 9)
      else if ¬p.flock ∨ mine.any (fun x => x.tag == tag) then .next (s.refuse part tag hart 1)
      else
        let j := SMap.get (0 : W64) s.jname hart
        let r := readRecord addr l
        .next { s with launches := s.launches ++ [{ tag := tag, part := part, pri := (r.ctrl.extractLsb' 0 2).toNat, lr := r,
                                                    obj := SMap.get {} p.objs addr.toNat,
                                                    hart := hart, pid := j.extractLsb' 0 24, tid := j.extractLsb' 24 24 }] }

/-- Every lease of a launch's cores ended with a refund (R350). -/
def State.endLeases (s : State) (l : Launch) : State := l.cores.foldl (fun s c => s.endLease c true true) s

/-- The contexts of a core that stand at a safe point or are blocked stop with launch-cancelled (R292). -/
def State.cancelCore (s : State) (core : Nat) : State :=
  (List.range 4).foldl (fun (s : State) c =>
    let x := (s.coreAt core).ctx c
    let at_ := x.status == .blocked || (x.safeAt.isSome && (x.status == .ready || x.status == .awaiting))
    if at_ then s.stopStanding core c Err.launchCancelled 0 0 else s) s

/-- The paused leases of a saved launch ended with a refund (R350). -/
def State.endPaused (s : State) (l : Launch) : State :=
  let back := (l.saved.map fun k => (k.lease.map Lease.refund).getD 0).sum
  if back = 0 then s else s.setPart l.part { s.part l.part with pool := (s.part l.part).pool + Int.ofNat back }

/-- LQCANCEL: the register takes the tag; a queued launch is removed with status 8; a placed one stops at its next safe points
(R287, R292). -/
def execLqcancel (v : W64) (s0 : State) : Host.Outcome State Fault Refusal :=
  let part := s0.frame.cur.part
  let s := if reservedPage part then s0 else s0.setPart part { s0.part part with lqcancel := v &&& 0xFFFFFFFF }
  match findLaunch s.launches part (v.setWidth 32) with
  | none => .next s
  | some l =>
    if l.status ≠ .placed then .next ((s.endPaused l).complete l 8)
    else
      let s1 := { s with launches := modLaunch s.launches part l.tag fun x => { x with cancel := true } }
      .next (l.cores.foldl State.cancelCore (s1.endLeases l))

/-! ## Sub-images and admission (R27, R286, R289, R290) -/

/-- What a record's sub-images hold. -/
structure Images where
  cores : List Nat
  groups : List (Nat × Nat × Nat)
  lives : List W256
  micro : List Byte
  data : List Byte
  resume : W256
  /-- The code image's base code address (R226). -/
  base : W64
  deriving DecidableEq, Repr

/-! ### Relocation (R226, R292) -/

/-- A 64-bit word at an offset of an image increased, where the image holds it. -/
def addAt (d : List Byte) (off : Nat) (v : W64) : List Byte :=
  if d.length < off + 8 then d
  else d.take off ++ leBytes 8 (leNat ((d.drop off).take 8) + v.toNat) ++ d.drop (off + 8)
/-- The data image bound: the code image's base, and the addresses of main-memory symbols, added to its items. -/
def bindData (o : Obj) (base : W64) (d : List Byte) : List Byte :=
  o.relocs.foldl (fun d r =>
    match r.kind with
    | .code64 => addAt d r.off base
    | .vaddr64 => addAt d r.off ((r.sym.map fun n => SMap.get 0 o.syms n).getD 0)
    | _ => d) d
/-- The relocation table is one the loader can apply, and every CORE10 item of the data image names a core of the launch. That a table
it cannot apply refuses the launch is a DESIGN CHOICE, unsafe (assumption 89). -/
def coresOk (o : Obj) (n : Nat) (d : List Byte) : Bool :=
  o.bindable && o.relocs.all fun r => r.kind != .core10 || decide (leNat ((d.drop r.off).take 8) / 2 ^ 32 % 1024 < n)

/-- A partition's cores in increasing physical number. -/
def Partition.coreList (p : Partition) : List Nat := (List.range 576).filter fun i => p.pr.cores.getLsbD i

/-- The logical cores a core-set bitmap names; none where a bit names no core or no bit is set (R286). -/
def coreSet (mine : List Nat) (bits : Nat) : Option (List Nat) :=
  if bits = 0 ∨ 2 ^ mine.length ≤ bits then none
  else some ((mine.zipIdx.filter fun x => bits.testBit x.2).map (·.1))

/-- The entries of a group table; none where one is not legal (R286, R290). -/
def groupTable (l : List Byte) (ncores nctx : Nat) : Option (List (Nat × Nat × Nat)) :=
  let n := leNat (l.take 4)
  let es := (List.range n).map fun i => leNat (((l.drop (4 + 4 * i))).take 4)
  let gs := es.map fun e => (e % 256, e / 256 % 1024, e / 2 ^ 18 % 4)
  if es.all (fun e => decide (e < 2 ^ 20)) && gs.all (fun g => decide (g.1 < 255) && decide (g.2.1 < ncores) && decide (g.2.2 < nctx))
      && decide gs.Nodup && gs.all (fun g => decide ((gs.filter fun h => h.2 == g.2).length ≤ 4)) then some gs
  else none

/-- A live list without a reserved bit or a register the contexts lack (R290, R304). -/
def liveOk (tiles : Nat) (l : W256) : Bool :=
  !l.getLsbD 80 && !l.getLsbD 95 && l.extractLsb' 161 95 == 0 && (List.range 16).all fun t => decide (t < tiles) || !l.getLsbD (144 + t)

/-- n bytes at an address, or none where the address is 0; the error of a fault. -/
def State.optRead (s : State) (part die : Nat) (va : W64) (n : Nat) : Option (List Byte) :=
  if va = 0 then some [] else (s.vread part die va n).toOption

/-- The sub-images read, checked and bound; none for a record error, a relocation table that cannot be applied or a CORE10 item outside the
core set (R226, R290, check 1, R292). -/
def State.readImages (s : State) (l : Launch) : Option Images :=
  let die := s.homeDie l.part
  let r := l.lr
  let rd := s.optRead l.part die
  let k := accTiles r.ppw l.nctx
  if ¬recordOk r.raw r ∨ 2048 * ppwScr r.ppw < r.dlen.toNat then none
  else
    match (s.vread l.part die r.cset 72).toOption, rd r.gtab 4, rd r.micro 4352, rd r.data r.dlen.toNat, rd r.resume 32,
        (s.vread l.part die r.live (32 * r.nlive.toNat)).toOption with
    | some cs, some g0, some mi, some da, some re, some li =>
      let base := match s.segHead l.part die r.code with
        | .ok h => h.base
        | .error _ => 0
      let n := leNat g0
      match coreSet (s.part l.part).coreList (leNat cs), (if 9216 < n then none else rd r.gtab (4 + 4 * n)) with
      | some cores, some gt =>
        let lives := (List.range r.nlive.toNat).map fun i => BitVec.ofNat 256 (leNat ((li.drop (32 * i)).take 32))
        match groupTable gt cores.length l.nctx with
        | some gs =>
          if lives.all (liveOk k) && coresOk l.obj cores.length da then
            some { cores := cores, groups := gs, lives := lives, micro := mi, data := bindData l.obj base da,
                   resume := BitVec.ofNat 256 (leNat re), base := base }
          else none
        | none => none
      | _, _ => none
    | _, _, _, _, _, _ => none

/-- The check of the partition word on a core: status 2, 3, or none (R27). -/
def wordStatus (w : W32) (x : Rows) : Option Nat :=
  if w.extractLsb' 29 3 ≠ 0 ∨ ppwReg w ≠ 32 ∨ 6 < ppwFop w then some 2
  else if min 12288 (x.survivors (ppwFop w)) < ppwRows w then some 3 else none

/-- Whether every segment of a chain expands (R83, R290). -/
def State.chainOk (s : State) (part die : Nat) : Nat → W64 → Bool
  | 0, _ => true
  | n + 1, va =>
    if va = 0 then true
    else
      let g := s.expand part die va
      g.err.isNone && State.chainOk s part die n g.next

/-- Whether an entry address passes R67 in a chain. -/
def State.entryOk (s : State) (part die : Nat) (code a : W64) : Bool :=
  !a.getLsbD 4 && decide (wiOf a < 10) &&
    match s.follow part die a 65536 code with
    | .at_ va => Packet.start ((s.expand part die va).packet a) (wiOf a)
    | _ => false

/-- The launch spans a boundary that LINKSTAT does not show up (R355). -/
def State.spansDown (s : State) (cores : List Nat) : Bool :=
  let on := fun d => cores.any fun c => dieOf c == d
  (List.range 3).any fun b =>
    SMap.get 0 s.pkg.link b != 0 && (match b with | 0 => on 0 && on 1 | 1 => on 1 && on 2 | _ => on 0 && on 2)

/-- An engine's routine table and microprogram store from an image: ME0's 2,176 bytes, then ME1's (R286). -/
def fillEngine (e : Bool) (img : List Byte) : Engine :=
  let mi := if e then img.drop 2176 else img
  { rtab := (List.range (min 64 (mi.length / 2))).map fun i => (i, BitVec.ofNat 16 (leNat ((mi.drop (2 * i)).take 2))),
    store := if mi.isEmpty then [] else
      (List.range 512).map fun i => (i, BitVec.ofNat 32 (leNat ((mi.drop (128 + 4 * i)).take 4))) }

/-- The status that refuses a launch, in the order of R290. -/
def State.admissionStatus (s : State) (l : Launch) (im : Images) : Option Nat :=
  let die := s.homeDie l.part
  match im.cores.findSome? fun c => wordStatus l.lr.ppw (s.coreAt c).rows with
  | some n => some n
  | none =>
    if ¬s.chainOk l.part die 65536 l.lr.code ∨ ¬s.entryOk l.part die l.lr.code l.lr.entry ∨ s.spansDown im.cores ∨
        s.distanceOver l (fillEngine false im.micro) (fillEngine true im.micro) die then some 1
    else none

/-- A prerequisite's standing (R289): satisfied, failed, or neither yet. -/
def State.prereqState (s : State) (part : Nat) (t : W32) : Option Bool :=
  if t = 0 then some true
  else if s.launches.any fun x => x.part == part && x.tag == t then none
  else
    match (s.part part).cplLast.reverse.find? fun x => x.1 == t with
    | some (_, st) => some (st == 0)
    | none => some true
/-- The standing of all of a launch's prerequisites: a failed one refuses it. -/
def State.prereqs (s : State) (l : Launch) : Option Bool :=
  let rs := l.lr.prereq.map (s.prereqState l.part)
  if rs.any (· == some false) then some false else if rs.all (· == some true) then some true else none

/-! ## Placement (R29, R35, R239, R291, R294) -/

/-- The group registers of a member: its groups in increasing number. -/
def groupRegs (groups : List (Nat × Nat × Nat)) (core c : Nat) : SMap Byte :=
  let gs := (List.range 255).filter fun g => groups.contains (g, core, c)
  (gs.zipIdx.map fun x => (x.2, BitVec.ofNat 8 x.1)).take 4

/-- A context at context load (R35). -/
def loadCtx (l : Launch) (core c : Nat) (p15 : Bool) (seg : W64) (due first pcc : Nat) : Ctx :=
  let regs : RegFile :=
    { s := l.lr.argS.zipIdx.map fun x => (x.2, { vis := x.1, hid := 0 }),
      a := l.lr.argA.zipIdx.map fun x => (x.2, { vis := x.1, hid := 0 }),
      p := [(15, { vis := p15, hid := false })], grp := groupRegs l.groups core c }
  let a : CtxArch := { pc := l.lr.entry, regs := regs }
  let g0 := (regs.getGrp 0).toNat
  let done := l.lr.resume != 0 && g0 != 255 && l.resume.getLsbD g0
  { cur := a, start := a, status := if done then .halted else .ready, first := first, since := pcc,
    fetch := { reqs := [{ va := seg, current := true, due := due }] } }

/-- A core as a placement or a reset finds it: its clock, power and rows, the handler's registers zero (R242, R318). -/
def Core.cleared (k : Core) : Core :=
  { cyc := k.cyc, last := k.last, pwr := { k.pwr with req := min k.pwr.req 6, deferred := none },
    rows := { depth := k.rows.depth, ldepth := k.rows.ldepth, gen := k.rows.gen, errs := k.rows.errs, reports := k.rows.reports },
    hold := k.hold, energy := k.energy, seq := k.seq }
/-- A core without a launch and without rows: its FLOOR is 0 (R242). -/
def Core.freed (k : Core) (pcc : Nat) : Core := k.cleared.retarget pcc

/-- A core that its launch has left, completed or saved: the owner records are discarded with the launch (R32), and what it left in the
core's memories and registers stays until the next placement zeroes it (R239, R293, assumption 75); a request of OP7 does not outlast
the lease (R242). -/
def Core.letGo (k : Core) (pcc : Nat) : Core :=
  { k with launch := none, issuing := none, lease := none, rows := { k.rows with owner := [] },
           pwr := { k.pwr with req := min k.pwr.req 6, deferred := none } }.retarget pcc

/-- Whether a mapped row, or a claimed slot, is retired (R30, R235). -/
def Rows.retiredUsed (x : Rows) : Bool :=
  x.mapped.any (fun p => decide (8 ≤ x.depthOf p.2)) || x.claimedSlots.any fun l => decide (8 ≤ x.slotDepth (x.physSlot l))
/-- The rows of a core mapped for a word; mapped rows and all slots, zeroed, hold no error (R29, R238, R239). A claimed slot of a resumed
launch that a retired physical slot holds sets evacuation-pending (R30), from the FLOOR found: DESIGN CHOICE, unsafe (assumption 93). -/
def Rows.place (x : Rows) (w : W32) (owner : SMap Byte) : Rows :=
  let y : Rows := { depth := x.depth, ldepth := x.ldepth, gen := x.gen, remap := x.fillRemap w, lmap := x.fillSlots, owner := owner,
                    ppw := w, reports := x.reports }
  let used := y.mapped.foldl (fun m p => m ||| 2 ^ p.2) 0
  let z := { y with errs := x.errs.filter fun e => decide (e.1 < 32 * 12800) && !used.testBit (e.1 / 32) }
  { z with floor := z.computeFloor, evacPend := z.retiredUsed, evacFrom := if z.retiredUsed then z.computeFloor else 0 }

/-- A core at the placement of a launch; its target follows from the new FLOOR alone (R242, R291). -/
def Core.place (k : Core) (l : Launch) (im : Images) (logical : Nat) (seg : W64) (dues : Nat → Nat) (pcc : Nat) : Core :=
  let f := k.cleared
  { f with ctxs := ((List.range l.nctx).map fun c =>
                      (c, loadCtx l logical c k.p15 seg (dues c) (k.cyc + 1) pcc)) ++ f.ctxs,
           scratch := Memory.writeBytes [] 0 im.data, larder := [], me0 := fillEngine false im.micro,
           me1 := fillEngine true im.micro, rows := k.rows.place l.lr.ppw [],
           pwr := { f.pwr with clk := 0 }, launch := some (l.part, l.tag), hold := k.cyc + 1 }.retarget pcc

/-- Each die's share of the tile indices (R300). -/
def dispensers (tiles : W64) (cores : List Nat) : SMap (Nat × Nat) :=
  let t := (tiles.extractLsb' 0 16).toNat * (tiles.extractLsb' 16 16).toNat * (tiles.extractLsb' 32 16).toNat
  let n := fun d => (cores.filter fun c => dieOf c == d).length
  let before := fun d => ((List.range d).map n).sum
  (List.range 3).map fun d => (d, (t * before d / cores.length, t * (before d + n d) / cores.length))

/-- A launch placed on its cores at once (R291). Where its notification area does not translate then, the device's write index begins at 0:
DESIGN CHOICE, unsafe (assumption 94). -/
def State.placeNew (s : State) (l : Launch) (im : Images) : State :=
  let die := s.homeDie l.part
  let seg := match s.follow l.part die l.lr.entry 65536 l.lr.code with
    | .at_ va => va
    | _ => 0
  let dues := fun c => s.pcc + Config.segmentLatency (s.ctr + c)
  let widx := if l.lr.notify = 0 then 0 else ((s.vreadLe l.part die l.lr.notify 8).toOption).getD 0
  let l1 := { l with status := .placed, cores := im.cores, groups := im.groups, lives := im.lives, resume := im.resume, codeBase := im.base,
                     disp := dispensers l.lr.tiles im.cores, widx := BitVec.ofNat 64 widx }
  let s1 := { s with launches := modLaunch s.launches l.part l.tag fun _ => l1, ctr := s.ctr + 4 }
  im.cores.zipIdx.foldl (fun (s : State) x => s.setCoreAt x.1 ((s.coreAt x.1).place l1 im x.2 seg dues s.pcc)) s1

/-! ## Resume (R307, R308) -/

/-- A saved block transfer's command restored: its start time rebased; whether it was late (R307). -/
def rebase (c : CopyCmd) (p p' : Nat) : CopyCmd × Bool :=
  if c.t = 0 then ({ c with ready := 0 }, false)
  else if p < c.t then ({ c with t := p' + (c.t - p), ready := 0 }, false)
  else ({ c with t := 0, ready := 0 }, true)

/-- A saved context on the core it resumes on (R36, R308); nothing that its phase's fetch left is kept for a rollback. -/
def resumeCtx (x : Ctx) (late : Bool) (cyc pcc : Nat) : Ctx :=
  let a := if late then { x.cur with regs := { x.cur.regs with flg := x.cur.regs.flg.raise Flags.lateCpy } } else x.cur
  { x with cur := a, start := a, fetch := {}, mdStart := [], kept := [], first := cyc + 1, since := pcc, xfers := x.xfers.map fun e => { e with ready := 0 } }

/-- A saved core's launch state on a core it resumes on: the rows mapped anew, owners by logical slot, commands rebased, a
paused lease continued, the handler's registers zero (R305 to R308, R318, R350). -/
def Core.resumeOn (k sv : Core) (l : Launch) (pcc : Nat) : Core :=
  let cmds := sv.ce.buf.map fun c => rebase c l.saveP pcc
  let late := fun c => cmds.any fun r => r.2 && r.1.ctx == c
  { sv with cyc := k.cyc, last := k.last, seq := max k.seq sv.seq, hold := k.cyc + 1, stall := 0, issuing := none, energy := k.energy,
            ctxs := (sv.ctxs.filter fun p => p.1 != handlerCtx).map fun p => (p.1, resumeCtx p.2 (late p.1) k.cyc pcc),
            ce := { sv.ce with buf := cmds.map (·.1), ch0 := sv.ce.ch0.map fun st => { st with ready := 0 },
                               ch1 := sv.ce.ch1.map fun st => { st with ready := 0 } },
            marks := [], launch := some (l.part, l.tag),
            pwr := { k.pwr with clk := 0, req := if sv.lease.isSome && sv.pwr.req == 7 then 7 else k.pwr.req },
            rows := k.rows.place l.lr.ppw sv.rows.owner : Core }.retarget pcc

/-- The permutations of the dies tried for a resume. -/
def diePerms : List (List Nat) := [[0, 1, 2], [0, 2, 1], [1, 0, 2], [1, 2, 0], [2, 0, 1], [2, 1, 0]]
/-- Cores of a list taken in order for logical cores that keep their dies' distribution under a permutation. -/
def takeCores (avail : List Nat) (perm : List Nat) : List Nat → Option (List Nat)
  | [] => some []
  | c :: rest =>
    match avail.find? fun a => dieOf a == perm.getD (dieOf c) 0 with
    | some a => (takeCores (avail.erase a) perm rest).map fun l => a :: l
    | none => none

/-- Whether a core can take a launch of a priority: 0 it holds none, 1 it holds one that may be pre-empted, 2 it cannot
(R291, R305). -/
def State.coreRoom (s : State) (core pri : Nat) : Nat :=
  match s.launchAt core with
  | none => 0
  | some h => if h.pri < pri ∧ h.lr.save ≠ 0 ∧ ¬h.cancel then 1 else 2

/-- The cores a saved launch may resume on: its own where they are the partition's and can take it, else others of the partition, of
equal number and die distribution (R308). -/
def State.resumeCores (s : State) (l : Launch) : Option (List Nat) :=
  let ok := fun c => s.coreRoom c l.pri != 2 && (wordStatus l.lr.ppw (s.coreAt c).rows).isNone
  let mine := (s.part l.part).coreList
  if l.cores.all (fun c => ok c && mine.contains c) && !s.spansDown l.cores then some l.cores
  else diePerms.findSome? fun perm =>
    (takeCores (mine.filter ok) perm l.cores).bind fun cs => if s.spansDown cs then none else some cs

/-- A saved launch placed again; each dispenser position goes to the die that now holds its cores (R301, R308). -/
def State.placeSaved (s : State) (l : Launch) (cores : List Nat) : State :=
  let moved := fun d => match (l.cores.zip cores).find? fun x => dieOf x.1 == d with
    | some x => dieOf x.2
    | none => d
  let disp := (l.cores.zip cores).foldl (fun (m : SMap (Nat × Nat)) x =>
    m.put (moved (dieOf x.1)) (SMap.get (0, 0) l.disp (dieOf x.1))) []
  let l1 := { l with status := .placed, cores := cores, disp := disp, saved := [], area := none }
  let s1 := { s with launches := modLaunch s.launches l.part l.tag fun _ => l1 }
  (cores.zip l.saved).foldl (fun (s : State) x =>
    (s.setCoreAt x.1 ((s.coreAt x.1).resumeOn x.2 l s.pcc)).charge x.1 5 (l.blockSize / 64)) s1

/-- The bytes of a save or a restore that cross boundaries counted to its partition, the launch block's on the home die and a core
block's on its core's (R335, R352). -/
def State.countSave (s : State) (l : Launch) (head : Nat) (write : Bool) : State :=
  let home := s.homeDie l.part
  let far := fun (die o n : Nat) => match l.area with
    | some a => farBytes die (a + o) n
    | none => s.crossingFrom die l.part home (l.lr.save + BitVec.ofNat 64 o) n write
  l.cores.zipIdx.foldl (fun (t : State) x => t.count l.part (dieOf x.1) 0x10 (far (dieOf x.1) (65536 + 4194304 * x.2) l.blockSize))
    (s.count l.part home 0x10 (far home 0 head))
/-- The accesses of a save area give way to others (R345). -/
def State.saveWaits (s : State) (l : Launch) : Bool :=
  let n := 65536 + 4194304 * l.cores.length
  match l.area with
  | some a => s.givesWayAt l.part a n
  | none => s.givesWayOn l.part (s.homeDie l.part) l.lr.save n

/-- A saved launch read back from its area and placed again; where the area does not translate it ends with STATUS 5, as a save does
there (R306, R308; assumption 73). -/
def State.resumeFrom (s : State) (l : Launch) (cores : List Nat) : State :=
  match s.readSave l (s.homeDie l.part) (readRecord l.lr.addr) with
  | some l1 => (s.placeSaved l1 cores).countSave { l1 with area := l.area, cores := cores } 0xA004 false
  | none => (s.endPaused l).complete l 5

/-! ## LAUNCH_PLACEMENT (R289, R291) -/

/-- The launches that hold any of a set of cores marked for pre-emption (R305). -/
def State.preemptHolders (s : State) (cores : List Nat) : State :=
  cores.foldl (fun (s : State) c => s.modLaunchAt c fun h => { h with preempt := true }) s

/-- The bytes of a launch's sub-images that cross boundaries counted to its partition, once, when it leaves the queue for its cores or
refused (R335, R352; assumption 95). -/
def State.countImages (s : State) (l : Launch) : State :=
  let r := l.lr
  let die := s.homeDie l.part
  let n := leNat ((s.optRead l.part die r.gtab 4).getD [])
  let all := [(r.cset, 72), (r.gtab, 4 + 4 * min n 9216), (r.micro, 4352), (r.data, r.dlen.toNat), (r.resume, 32), (r.live, 32 * r.nlive.toNat)]
  all.foldl (fun (s : State) x => if x.1 = 0 then s else s.crossed l.part die x.1 x.2 false) s

/-- A launch tried: placed, its holders pre-empted, refused, or left; with the cores it waits for, which the launches behind
it may not take (R289). -/
def State.tryPlace (s : State) (l : Launch) (taken : List Nat) : State × List Nat :=
  let put := fun (cores : List Nat) (go : State → State) =>
    if cores.any taken.contains ∨ cores.any (fun c => s.coreRoom c l.pri == 2) then (s, taken ++ cores)
    else if cores.all fun c => s.coreRoom c l.pri == 0 then (go s, taken)
    else (s.preemptHolders cores, taken ++ cores)
  if l.status = .saved then
    match s.resumeCores l with
    | some cores => put cores fun s => s.resumeFrom l cores
    | none => (s, taken ++ l.cores)
  else
    match s.readImages l with
    | none => ((s.countImages l).complete l 1, taken)
    | some im =>
      match s.admissionStatus l im with
      | some n => ((s.countImages l).complete l n, taken)
      | none => put im.cores fun s => (s.countImages l).placeNew l im

/-- The waiting launches of a partition in the order they are considered: priority, then place in the queue (R289). -/
def State.waiting (s : State) (part : Nat) : List Launch :=
  let w := s.launches.filter fun l => l.part == part && l.status != .placed
  (List.range 4).reverse.flatMap fun p => w.filter fun l => l.pri == p

/-- The reads of a launch's sub-images, or of its save area, give way to others (R345). -/
def State.readsWait (s : State) (l : Launch) : Bool :=
  if l.status = .saved then s.saveWaits l
  else [l.lr.code, l.lr.cset, l.lr.live, l.lr.gtab, l.lr.micro, l.lr.data, l.lr.resume].any fun a =>
    a != 0 && s.givesWay l.part (s.homeDie l.part) a

/-- The marks of a partition's launches taken back, but for those of a quiesce: the placements that still need their cores mark them again
(R305, R358). -/
def State.unmark (s : State) (part : Nat) : State :=
  { s with launches := s.launches.map fun l => if l.part = part ∧ l.status = .placed ∧ l.area.isNone then { l with preempt := false } else l }

/-- The waiting launches of a partition considered: failed prerequisites refuse with status 4; those whose prerequisites are
satisfied are taken in order, and placed, resumed, refused or left waiting (R289 to R291, R308), and a launch is marked for
pre-emption as long as one of them needs its cores (R305). A quiesced or resetting partition places none, nor does one whose reads give
way to others (R345), nor a device whose boot has failed at stage 1 or whose compute cores are unavailable (R343, R353, R372). A launch
saved in the same PCC cycle counts as queued in it, and is considered from the next on (R358). -/
def State.placeWaiting (s0 : State) (part : Nat) : State :=
  let p := s0.part part
  if p.resetting ∨ p.quiesced ∨ s0.pkg.bootErr = 1 ∨ s0.pkg.noCores ∨ (s0.waiting part).any s0.readsWait then s0
  else
    let s := s0.unmark part
    ((s.waiting part).foldl (fun (a : State × List Nat) l =>
      if l.status = .saved then
        if l.saveP = s.pcc then (a.1, a.2 ++ ((a.1.resumeCores l).getD l.cores)) else a.1.tryPlace l a.2
      else
        match a.1.prereqs l with
        | some true => a.1.tryPlace l a.2
        | some false => (a.1.complete l 4, a.2)
        | none => a) (s, [])).1

/-- LAUNCH_PLACEMENT (R289 to R291, R308). -/
def execLaunchPlacement (s : State) : Host.Outcome State Fault Refusal := .next (s.placeWaiting s.frame.cur.part)

/-! ## Barriers (R269, R296, R297) -/

/-- The members of a group: logical core, context (R286, R296). -/
def Launch.members (l : Launch) (g : Nat) : List (Nat × Nat) :=
  if g = 255 then (List.range l.cores.length).flatMap fun i => (List.range l.nctx).map fun c => (i, c)
  else (l.groups.filter fun e => e.1 == g).map (·.2)
/-- A context has ended (R293). -/
def CtxStatus.ended (c : CtxStatus) : Bool := c == .halted || c == .stopped || c == .absent
/-- The context of a launch's member. -/
def State.member (s : State) (l : Launch) (m : Nat × Nat) : Ctx := (s.coreAt (l.cores.getD m.1 0)).ctx m.2

/-- An access R269 waits for. -/
def Access.local_ (a : Access) : Bool :=
  match a.kind with
  | .load .. => false
  | .signal _ => false
  | _ => true

/-- Whether an episode may release: every member has arrived or ended, its local writes have performed, and for group 255
the previous step has ended (R269, R296). -/
def State.mayRelease (s : State) (l : Launch) (g : Nat) : Bool :=
  let e := SMap.get {} l.episodes g
  (l.members g).all (fun m => e.arrived.any (fun a => a.1 == m) || (s.member l m).status.ended) &&
    (l.members g).all (fun m => !(s.coreAt (l.cores.getD m.1 0)).accs.any fun a => a.ctx == m.2 && a.local_) &&
    (g != 255 || l.step.isNone)

/-- A member's condition holds. One that is blocked on a core whose core cycle ends in this PCC cycle is ready from the next core
cycle; on a core within a cycle it is tested at that cycle's end, in a handler's service when the service has ended, and one that the
handler gives back in this cycle at the end of the next (R58, R129, R296). -/
def Core.releaseBar (k : Core) (c g pcc : Nat) : Core :=
  let x := k.ctx c
  if x.cond ≠ some (.bar (BitVec.ofNat 8 g)) then k
  else if x.status = .blocked ∧ k.last = pcc ∧ x.first ≤ k.cyc + 1 then k.release c pcc
  else k.setCtx c { x with cond := some .done }

/-- The window of an entry from a release: its first PCC and its length (R180). -/
def Launch.window (l : Launch) (core : Nat) (e : XferEntry) : Nat :=
  (if dieOf core = dieOf (l.cores.getD e.dcore 0) then 32 else 160) + (e.len + 63) / 64
/-- Whether an entry's window passes the step's end (R180). -/
def Launch.late (l : Launch) (core n : Nat) (e : XferEntry) : Bool := decide (n < e.ofs + l.window core e)

/-- The queued entries of a launch's contexts: core, entry. -/
def State.entries (s : State) (l : Launch) : List (Nat × XferEntry) :=
  l.cores.flatMap fun c => (List.range 4).flatMap fun x => (((s.coreAt c).ctx x).xfers.filter fun e => e.rel.isNone).map fun e => (c, e)

/-- The entries counted in a total that fails its bound (R298): out of a core, into a core, across a boundary one way. -/
def overTraffic (l : Launch) (n : Nat) (es : List (Nat × XferEntry)) : List (Nat × XferEntry) :=
  let dst := fun (x : Nat × XferEntry) => l.cores.getD x.2.dcore 0
  let total := fun (f : Nat × XferEntry → Bool) => ((es.filter f).map fun x => x.2.len).sum
  es.filter fun x =>
    decide (64 * n < total fun y => y.1 == x.1) || decide (64 * n < total fun y => dst y == dst x) ||
      (dieOf x.1 != dieOf (dst x) && decide (8000 * n < total fun y => dieOf y.1 == dieOf x.1 && dieOf (dst y) == dieOf (dst x)))

/-- A context's entries given their release, or taken from it. -/
def Core.relEntries (k : Core) (c : Nat) (rel : Option Nat) : Core :=
  let x := k.ctx c
  k.setCtx c { x with xfers := match rel with
    | some r => x.xfers.map fun e => if e.rel.isNone then { e with rel := some r } else e
    | none => x.xfers.filter fun e => e.rel.isSome }

/-- The release of a group-255 episode begins a step: windows and traffic checked; a context in error stops at rel, the
others' entries run (R180, R297, R298). -/
def State.beginStep (s : State) (l : Launch) (n : Nat) : State :=
  let all := s.entries l
  let late := all.filter fun x => l.late x.1 n x.2
  let excess := overTraffic l n (all.filter fun x => !l.late x.1 n x.2)
  let s1 := { s with launches := modLaunch s.launches l.part l.tag fun x => { x with step := some (s.pcc, s.pcc + n) } }
  l.cores.foldl (fun (s : State) core => (List.range 4).foldl (fun (s : State) c =>
    match (late ++ excess).find? fun x => x.1 == core && x.2.ctx == c with
    | some x =>
      (s.setCoreAt core ((s.coreAt core).relEntries c none)).stopStanding core c Err.commStep (BitVec.ofNat 64 s.pcc) x.2.pc
    | none => s.setCoreAt core ((s.coreAt core).relEntries c (some s.pcc))) s) s1

/-- BARRIER_RELEASE: the group's episode releases when it may; arrived members become ready, and a group-255 episode with an
arrived member begins a communication step (R296, R297). -/
def execBarrierRelease (tag : W32) (g : Byte) (s : State) : Host.Outcome State Fault Refusal :=
  let part := s.frame.cur.part
  match findLaunch s.launches part tag with
  | none => .next s
  | some l =>
    let e := SMap.get {} l.episodes g.toNat
    if l.status ≠ .placed ∨ e.arrived = [] ∨ ¬s.mayRelease l g.toNat then .next s
    else
      let s1 := { s with launches := modLaunch s.launches part tag fun x => { x with episodes := x.episodes.del g.toNat } }
      let s2 := e.arrived.foldl (fun (s : State) m =>
        let c := l.cores.getD m.1.1 0
        s.setCoreAt c ((s.coreAt c).releaseBar m.1.2 g.toNat s.pcc)) s1
      .next (if g = 255 then s2.beginStep l e.stepOf else s2)

/-- COMM_STEP_END: at rel + n the step ends, and each core's last deferred request takes effect (R242, R299). -/
def execCommStepEnd (tag : W32) (s : State) : Host.Outcome State Fault Refusal :=
  let part := s.frame.cur.part
  match findLaunch s.launches part tag with
  | none => .next s
  | some l =>
    match l.step with
    | none => .next s
    | some (_, e) =>
      if s.pcc < e then .next s
      else
        let s1 := { s with launches := modLaunch s.launches part tag fun x => { x with step := none } }
        .next (l.cores.foldl (fun (s : State) c =>
          let k := s.coreAt c
          match k.pwr.deferred with
          | some j =>
            let ok := j < 7 ∨ k.lease.isSome
            s.setCoreAt c ({ k with pwr := { k.pwr with deferred := none, req := if ok then j else 6 } }.retarget s.pcc)
          | none => s) s1)

/-! ### The transfers of a step (R158, R180, R263, R266)

An entry that has begun holds its 8-byte elements that have not performed. In each core cycle of its source core those a free choice
takes are read, in the place of the reads of R158; in each cycle of the destination's core those read are delivered, in the place of
its deliveries; every element where the entry's window is about to end. -/

/-- The elements of an entry, by offset. -/
def XferEntry.elements (e : XferEntry) : List (Nat × Option (List Byte)) := (List.range (e.len / 8)).map fun i => (8 * i, none)
/-- The PCC by which an entry completes (R180). -/
def Launch.windowEnd (l : Launch) (core : Nat) (e : XferEntry) : Nat := e.rel.getD 0 + e.ofs + l.window core e
/-- A core's entry changed or removed. -/
def Core.putXfer (k : Core) (e : XferEntry) (v : Option XferEntry) : Core :=
  let x := k.ctx e.ctx
  match x.xfers.findIdx? (· == e) with
  | some n => k.setCtx e.ctx { x with xfers := setNth x.xfers n v }
  | none => k
/-- The entries of a core that have begun. -/
def Core.begun (k : Core) : List XferEntry := (List.range 4).flatMap fun c => (k.ctx c).xfers.filter fun e => !e.left.isEmpty

/-- A context's released entries whose start has come begin (R180). -/
def Core.beginXfers (k : Core) (c pcc : Nat) : Core :=
  let x := k.ctx c
  k.setCtx c { x with xfers := x.xfers.map fun e =>
    match e.rel with
    | some r => if e.left.isEmpty && decide (r + e.ofs ≤ pcc) then { e with left := e.elements } else e
    | none => e }
/-- XFER_TRANSFER: the released entries of a launch whose offset has come begin (R180). -/
def execXferTransfer (tag : W32) (s : State) : Host.Outcome State Fault Refusal :=
  match findLaunch s.launches s.frame.cur.part tag with
  | none => .next s
  | some l =>
    .next (l.cores.foldl (fun (s : State) core =>
      s.setCoreAt core ((List.range 4).foldl (fun (k : Core) c => k.beginXfers c s.pcc) (s.coreAt core))) s)

/-- The elements of an entry that are taken, of those not read yet, read; or the erring row met (R250). -/
def State.readXfer (s : State) (core : Nat) (e : XferEntry) (take : Nat → Bool) : Moved XferEntry :=
  let r := e.left.zipIdx.foldl (fun (a : Moved (List (Nat × Option (List Byte)))) x =>
    if a.2.2.isSome || x.1.2.isSome || !take x.2 then (a.1, a.2.1 ++ [x.1], a.2.2)
    else
      match a.1.readEl core true { chunk := 0, loc := e.src + x.1.1, va := 0, n := 8 } with
      | .ok (bs, s1) => (s1, a.2.1 ++ [(x.1.1, some bs)], none)
      | .error er => (a.1, a.2.1 ++ [x.1], some er)) (s, [], none)
  (r.1, { e with left := r.2.1 }, r.2.2)
/-- One entry's reads of a cycle: an erring row stops its context, and the entry ends. -/
def State.readEntry (s : State) (core : Nat) (e : XferEntry) (take : Nat → Bool) : State :=
  let m := s.readXfer core e take
  match m.2.2 with
  | none => m.1.setCoreAt core ((m.1.coreAt core).putXfer e (some m.2.1))
  | some er => (m.1.setCoreAt core ((m.1.coreAt core).putXfer e none)).stopStanding core e.ctx er.1 er.2 e.pc
/-- The elements of an entry that are taken, of those read, delivered to a core; at one that has lost capacity they are not specified
(R309). The bytes are charged to the entry's core, and counted where they cross a boundary (R346, R352). -/
def State.writeEntry (s : State) (l : Launch) (core dst : Nat) (e : XferEntry) (take : Nat → Bool) : State :=
  let now := e.left.zipIdx.filter fun x => x.1.2.isSome && take x.2
  let kept := (e.left.zipIdx.filter fun x => !(x.1.2.isSome && take x.2)).map (·.1)
  let s1 := now.foldl (fun (s : State) x =>
    let d := if l.lost.contains dst then s.draw.2 else s
    let bs := if l.lost.contains dst then openBytes s.ctr 8 else x.1.2.getD []
    d.setCoreAt dst (((d.coreAt dst).deliverBytes (e.dst + x.1.1) bs).wrote
      { addr := e.dst + x.1.1, len := 8, code := 3, ctx := e.ctx, far := dst != core })) s
  let a := e.len - 8 * e.left.length
  let b := e.len - 8 * kept.length
  let s2 := s1.setCoreAt core ((s1.coreAt core).putXfer e (if kept.isEmpty then none else some { e with left := kept }))
  if dieOf core = dieOf dst then s2.charge core 7 (passed 64 a b)
  else (s2.charge core 8 (passed 64 a b)).count l.part (dieOf core) 0x10 (b - a)

/-- The choice of a cycle among an entry's elements: a free one, all of them from a PCC on. -/
def xferTake (draw n : Nat) (force : Bool) (i : Nat) : Bool := force || Config.copyTake (2 ^ 40 * draw + 2 ^ 38 + 2 ^ 17 * n + i)
/-- The reads of a core's entries in a cycle, from the third core cycle after their bundle's last on (R266); none while its pool is held
(R168, R325). -/
def State.readXfers (s : State) (core : Nat) : State :=
  let k := s.coreAt core
  match s.launchAt core with
  | none => s
  | some l =>
    if k.begun.isEmpty || decide (k.cyc < k.hold) then s
    else
      k.begun.zipIdx.foldl (fun (s1 : State) x =>
        if k.cyc < x.1.ready then s1 else s1.readEntry core x.1 (xferTake s.ctr x.2 (decide (l.windowEnd core x.1 ≤ s.pcc + 7)))) s.draw.2
/-- The deliveries of a launch's entries to a core in a cycle; none while its pool is held. -/
def State.writeXfers (s : State) (dst : Nat) : State :=
  let k := s.coreAt dst
  match s.launchAt dst with
  | none => s
  | some l =>
    let es := l.cores.flatMap fun c => ((s.coreAt c).begun.filter fun e => l.cores.getD e.dcore 0 == dst).map fun e => (c, e)
    if es.isEmpty || decide (k.cyc < k.hold) then s
    else
      es.zipIdx.foldl (fun (s1 : State) x =>
        s1.writeEntry l x.1.1 dst x.1.2 (xferTake s.ctr x.2 (decide (l.windowEnd x.1.1 x.1.2 ≤ s.pcc + 4)))) s.draw.2

/-- An entry completed at once (R343). -/
def State.finishXfer (s : State) (l : Launch) (core : Nat) (e : XferEntry) : State :=
  let e1 := if e.left.isEmpty then { e with left := e.elements } else e
  let m := s.readXfer core e1 fun _ => true
  (m.1.setCoreAt core ((m.1.coreAt core).putXfer e (some m.2.1))).writeEntry l core (l.cores.getD e.dcore 0) m.2.1 fun _ => true

/-! ## Next tile (R300, R301) -/

/-- The coordinates of an index (R301). -/
def tileAt (tiles : W64) (i : Nat) : W64 :=
  let nx := (tiles.extractLsb' 0 16).toNat
  let ny := (tiles.extractLsb' 16 16).toNat
  BitVec.ofNat 64 (i % nx + 2 ^ 16 * (i / nx % ny) + 2 ^ 32 * (i / (nx * ny)))

/-- One request served by its die's dispenser. -/
def State.serveTile (s : State) (l : Launch) (q : NtReq) : State :=
  let d := dieOf q.core
  let r := SMap.get (0, 0) l.disp d
  let ans : W64 := if r.1 < r.2 then tileAt l.lr.tiles r.1 else 0x8000000000000000
  let f := fun (x : Launch) => { x with disp := if r.1 < r.2 then x.disp.put d (r.1 + 1, r.2) else x.disp,
                                        ntq := x.ntq.map fun y => if y = q then { q with answer := some ans } else y }
  let s1 := { s with launches := modLaunch s.launches l.part l.tag f }
  if r.1 < r.2 then s1.count l.part d 0x20 1 else s1

/-- The order in which requests are served (R301). -/
def ntBefore (a b : NtReq) : Bool :=
  decide (a.arrive < b.arrive ∨ (a.arrive = b.arrive ∧ (a.core < b.core ∨ (a.core = b.core ∧ a.ctx ≤ b.ctx))))

/-- An answered request's landing on its context's hidden face (R40, R128). -/
def Core.landTile (k : Core) (q : NtReq) (v : W64) : Core :=
  let x := k.ctx q.ctx
  if x.ntWait.contains (q.reg, q.sclk) then
    k.setCtx q.ctx { x with cur := { x.cur with regs := x.cur.regs.landNt q.reg v }, ntWait := x.ntWait.erase (q.reg, q.sclk),
                            landed := x.landed ++ [(1, 0x88 + q.reg, q.sclk, some v)] }
  else k

/-- DISPENSER_ANSWER: the requests of the launch on the cursor's core that have arrived are served in order; those of the
core whose landing is due land (R301). -/
def execDispenserAnswer (s : State) : Host.Outcome State Fault Refusal :=
  let core := s.frame.cur.core
  match s.launch with
  | none => .next s
  | some l =>
    let due := sortBy ntBefore (l.ntq.filter fun q => q.answer.isNone && decide (q.arrive < s.pcc))
    let s1 := due.foldl (fun (s : State) q =>
      match s.launchAt core with
      | some l => s.serveTile l q
      | none => s) s
    match s1.launchAt core with
    | none => .next s1
    | some l1 =>
      let now := l1.ntq.filter fun q => q.core == core && q.answer.isSome && decide (q.due ≤ s.core.cyc)
      let k := now.foldl (fun (k : Core) q => k.landTile q (q.answer.getD 0)) s1.core
      .next ((s1.setCore k).modLaunchAt core fun x => { x with ntq := x.ntq.filter fun q => !now.contains q })

/-! ## Pre-emption and saves (R305, R306) -/

/-- A context stands where a save may take it (R305). -/
def Ctx.parked (x : Ctx) : Bool :=
  x.flip.isNone && x.split.isNone && x.ntWait.isEmpty && x.mzWait.isEmpty && x.answers.isEmpty &&
    (match x.status with
     | .ready => x.safeAt.isSome
     | .awaiting => x.safeAt.isSome
     | .inService => false
     | _ => true)
/-- An XFER entry that a step has begun to run is left (R180). -/
def Core.transferring (k : Core) : Bool := (List.range 4).any fun c => (k.ctx c).xfers.any fun e => e.rel.isSome
/-- A core's state may be saved: contexts parked, the handler idle, nothing begun left (R305). -/
def Core.quiet (k : Core) : Bool :=
  (List.range 4).all (fun c => (k.ctx c).parked) && k.svc.served.isNone && k.accs.isEmpty && k.ce.catoms.isEmpty &&
    k.ce.buf.all (fun c => !c.begun) && !k.transferring && (k.ce.ch0 ++ k.ce.ch1).all (fun st => st.pos == 0 && st.words.isEmpty) && !k.me0.busy && !k.me1.busy

/-- A core as a save holds it: each context's registers under its safe point's live list, ports delivered (R36, R304); the switch to
an idle core stands in the ring (R329). -/
def Core.asSaved (k : Core) (l : Launch) (enables : Flags) (pcc : Nat) : Core :=
  let k1 := (match k.issuing with
    | some c => k.traceSwitch pcc c none 2
    | none => k).flush
  { k1 with issuing := none, ctxs := k.ctxs.map fun p =>
      if p.1 = handlerCtx ∨ p.2.safeAt.isNone then p
      else
        let a := p.2.cur.restore (l.liveOf p.2) true k.p15 enables
        (p.1, { p.2 with cur := a, start := a, saved := true }) }

/-- A launch block's bytes, in pieces (R306). -/
def launchBlock (l : Launch) (pcc : Nat) : List (Nat × List Byte) :=
  let eps := (List.range 256).flatMap fun g =>
    let e := SMap.get {} l.episodes g
    leBytes 8 (e.arrived.length + 2 ^ 14 * (l.members g).length + 2 ^ 28 * e.stepOf)
  let disp := (List.range 3).flatMap fun d =>
    leBytes 4 (SMap.get (0, 0) l.disp d).1 ++ leBytes 4 (SMap.get (0, 0) l.disp d).2 ++ leBytes 8 0
  let gt := leBytes 4 l.groups.length ++ l.groups.flatMap fun g => leBytes 4 (g.1 + 256 * g.2.1 + 2 ^ 18 * g.2.2)
  [(0, l.lr.raw), (0x100, leBytes 8 pcc ++ leBytes 2 l.cores.length ++ leBytes 6 0),
   (0x110, (List.range 576).flatMap fun i => leBytes 2 (l.cores.getD i 0xFFFF)), (0x590, leBytes 112 0), (0x600, eps),
   (0xE00, disp ++ leBytes 8 l.widx.toNat ++ leBytes 8 l.drops ++ leBytes 448 0), (0x1000, pad 36868 gt), (0xA004, leBytes 24572 0)]

/-- A core block's bytes, in pieces: the state block, the Larder, the mapped rows (R306, R327). -/
def coreBlock (k : Core) (core : Nat) (l : Launch) (pcc : Nat) : List (Nat × List Byte) :=
  [(0, stateBlock k core l pcc k.opc true), (0x10000, larderBytes k),
   (0x90000, (poolBytes k l.nctx).take (256 * ppwRows l.lr.ppw))]

/-- The pieces of a save: offset and bytes (R306). -/
def savePieces (l : Launch) (cores : List (Nat × Core)) (pcc : Nat) : List (Nat × List Byte) :=
  launchBlock l pcc ++ cores.zipIdx.flatMap fun x =>
    (coreBlock x.1.2 x.1.1 l pcc).map fun p => (65536 + 4194304 * x.2 + p.1, p.2)

/-- A save's pieces written at SAVE, or in a migration area; the first address that does not translate (R306, R353). -/
def State.writeSave (s : State) (l : Launch) (ps : List (Nat × List Byte)) : Except W64 State :=
  match l.area with
  | some a => .ok { s with mem := ps.foldl (fun m p => m.writeBytes (a + p.1) p.2) s.mem }
  | none =>
    ps.foldl (fun acc p =>
      match acc with
      | .error e => .error e
      | .ok (s : State) => s.vwrite l.part (s.homeDie l.part) (l.lr.save + BitVec.ofNat 64 p.1) p.2) (.ok s)

/-- A launch that is being pre-empted may be saved: no step of it runs and its cores' contexts stand at safe points (R305). -/
def State.saveReady (s : State) (l : Launch) : Bool :=
  l.status == .placed && l.preempt && !l.cancel && l.step.isNone && l.cores.all fun c => (s.coreAt c).quiet
/-- The launches that are saved with one: those of its partition that make room for the same placements, so that LQSTAT counts them as
queued in the update that counts the launch placed in their stead (R358); a quiesce saves each alone. -/
def State.savedWith (s : State) (l : Launch) : List Launch :=
  if l.area.isSome then [l]
  else s.launches.filter fun x => x.part == l.part && x.status == .placed && x.preempt && x.area.isNone

/-- The address at which a launch's save meets a translation fault (R306). -/
def State.saveFault (s : State) (l : Launch) : Option W64 :=
  match s.writeSave l (savePieces l (l.cores.map fun c => (c, (s.coreAt c).asSaved l (trapEnables l.lr.ctrl) s.pcc)) s.pcc) with
  | .error va => some va
  | .ok _ => none
/-- A translation fault of the save ends the launch, and every context stops (R306). -/
def State.failSave (s : State) (l : Launch) (va : W64) : State :=
  let s1 := { s with launches := modLaunch s.launches l.part l.tag fun x => { x with preempt := false, sawFatal := true } }
  l.cores.foldl (fun (s : State) core =>
    (List.range 4).foldl (fun (s : State) c => s.stopStanding core c Err.saveFailed va 0) s) s1
/-- A launch saved: its area written, its cores freed, the launch requeued at the head of its priority; the save's energy and bytes are
its partition's (R305, R335, R347). A translation fault of the save ends the launch (R306). -/
def State.saveLaunch (s : State) (l : Launch) : State :=
  let saved := l.cores.map fun c => (s.coreAt c).asSaved l (trapEnables l.lr.ctrl) s.pcc
  match s.writeSave l (savePieces l (l.cores.zip saved) s.pcc) with
  | .error va => s.failSave l va
  | .ok s1 =>
    let l1 := { l with status := .saved, saved := saved, saveP := s.pcc, preempt := false }
    let rest := s1.launches.filter fun x => !(x.part == l.part && x.tag == l.tag)
    let s2 := l.cores.foldl (fun (s : State) c => s.charge c 5 (l.blockSize / 64)) ({ s1 with launches := l1 :: rest }.countSave l 65536 true)
    l.cores.foldl (fun (s : State) c => s.setCoreAt c ((s.coreAt c).letGo s.pcc)) s2

/-- The saves of a launch and of those saved beside it, once each may be saved. Where one meets a translation fault, that launch ends, and
the others wait for its cores (R306, R358). In the same step what waits for the cores is placed (R291, R305, R358). -/
def State.saveAll (s : State) (l : Launch) : State :=
  let all := s.savedWith l
  let bad := all.filter fun x => (s.saveFault x).isSome
  if !s.saveReady l || !all.all s.saveReady || all.any s.saveWaits || (s.waiting l.part).any s.readsWait then s
  else if !bad.isEmpty then bad.foldl (fun (s : State) x => match s.saveFault x with | some va => s.failSave x va | none => s) s
  else (all.foldl State.saveLaunch s).placeWaiting l.part

/-- PRE_EMPTION: the waiting launches are considered, so that a mark which none of them needs any more is taken back (R289, R305); then,
once no step of a launch marked runs and every context stands at a safe point, it is saved with those saved beside it, and in the
same step what waits for the cores is placed (R291, R305, R358). At background priority the save, and what it makes room for, give
way to others (R345). -/
def execPreEmption (tag : W32) (s0 : State) : Host.Outcome State Fault Refusal :=
  let s := s0.placeWaiting s0.frame.cur.part
  match findLaunch s.launches s.frame.cur.part tag with
  | none => .next s
  | some l => .next (s.saveAll l)

/-! ## Completion (R288, R293) -/

/-- A core has nothing of its launch left to do: contexts ended, commands completed (R293). -/
def Core.finished (k : Core) : Bool :=
  (List.range 4).all (fun c => (k.ctx c).status.ended) && k.accs.isEmpty && k.ce.buf.isEmpty && k.ce.ch0.isEmpty &&
    k.ce.ch1.isEmpty && k.ce.catoms.isEmpty && !k.me0.busy && !k.me1.busy && !k.transferring

/-- The status a launch completes with (R288). -/
def Launch.endStatus (l : Launch) (stopped : Bool) : Nat :=
  if l.sawFatal then 5 else if l.sawCapacity then 6 else if l.sawLink then 7 else if l.cancel && stopped then 8 else 0

/-- LAUNCH_COMPLETION: every context has ended, every command has completed and no step is running: the cores are released
and the completion is posted (R293). -/
def execLaunchCompletion (tag : W32) (s : State) : Host.Outcome State Fault Refusal :=
  let part := s.frame.cur.part
  match findLaunch s.launches part tag with
  | none => .next s
  | some l =>
    if l.status ≠ .placed ∨ l.step.isSome ∨ ¬(l.cores.all fun c => (s.coreAt c).finished) then .next s
    else
      let stopped := l.cores.any fun k => (List.range 4).any fun c => ((s.coreAt k).ctx c).status == .stopped
      let s1 := l.cores.foldl (fun (s : State) c => s.setCoreAt c ((s.coreAt c).letGo s.pcc)) s
      .next (s1.complete l (l.endStatus stopped))

end Sys2Proof.Machine
end

