-- ==== Sys2Proof/Machine/Ports.lean ====
section
/-!
DEFINITION. The network and storage ports (R369 to R371, R375): their accesses, the page requests they make, what waits and what
fails (R258, R259, R370), and port error records (R341, R370).
-/
namespace Sys2Proof.Machine

/-- Fields of a STOBIND register (R375). -/
def bindRid (w : W64) : BitVec 16 := w.setWidth 16
def bindPart (w : W64) : Nat := (w.extractLsb' 16 6).toNat
def bindErr (w : W64) : Bool := w.getLsbD 62
def bindValid (w : W64) : Bool := w.getLsbD 63

/-! ## Port errors (R341, R370) -/

/-- A port error record written to the PERRBASE ring, with VF vector 3; without a ring it is discarded. The codes of its port
and status bytes are not stated (assumption 5). -/
def State.portError (s : State) (part : Nat) (va : W64) (id : Nat) : State :=
  let p := s.part part
  let bytes := leBytes 8 va.toNat ++ leBytes 4 id ++ openBytes s.ctr 2 ++ leBytes 2 0 ++ leBytes 8 s.pcc ++ leBytes 8 0
  if p.perrbase = 0 then s
  else
    match s.physPieces part (s.homeDie part) (p.perrbase + BitVec.ofNat 64 (32 * (p.perridx.toNat % 64))) bytes with
    | .error _ => s
    | .ok l => (s.draw.2.setPart part { p with perridx := p.perridx + 1 }).putRecord part (s.homeDie part) l [.vf part 3]

/-- A queue pair's standing changed. -/
def State.setQp (s : State) (qp : Nat) (q : QueuePair) : State := { s with pkg := { s.pkg with qps := s.pkg.qps.put qp q } }
/-- A queue pair. -/
def State.qp (s : State) (n : Nat) : QueuePair := SMap.get {} s.pkg.qps n

/-- The valid bindings of a requester take the error state (R370, R375). -/
def State.bindError (s : State) (rid : BitVec 16) : State :=
  let f := fun (_ : Nat) (w : W64) => if bindValid w && bindRid w == rid then w ||| 0x4000000000000000 else w
  { s with pkg := { s.pkg with stobind := s.pkg.stobind.mapVal f } }

/-- A port request that a failed answer ends: the work request with status TRANSLATION, or the binding in error, with a
port error record (R370). -/
def State.failWait (s : State) (w : PortWait) : State :=
  match w.i with
  | .networkWorkRequest r =>
    (s.setQp r.qp { s.qp r.qp with err := true, status := 1 }).portError w.cur.part (w.page.getD r.va) r.qp
  | .storageDma r => (s.bindError r.rid).portError w.cur.part (w.page.getD r.va) r.rid.toNat
  | _ => s

/-! ## The ports (R369 to R371) -/

/-- The first page of a port's access that faults. -/
def State.portFault (s : State) (part die : Nat) (va : W64) (n : Nat) (write : Bool) : Option W64 :=
  (s.vcheck part die va n write).map fun a => a &&& ~~~0xFFF

/-- An inbound packet that a pending page request turns back: an RC write is answered with RNR NAK, a UD packet dropped; its sender sends
it again, or it is lost (R370). -/
def turnedBack (r : NetReq) : Bool :=
  r.inbound && (r.ud || match r.op with
    | .send => true
    | .write => true
    | _ => false)
/-- A request that waits without a page request of its own: for an entry to free, or for its turn. It is made again. -/
def PortWait.unasked (w : PortWait) : Bool := w.page.isNone
/-- A wait whose access is made again when its page is resolved, or an entry frees. -/
def PortWait.again (w : PortWait) : Bool :=
  w.unasked || match w.i with
  | .networkWorkRequest r => !turnedBack r
  | _ => true
/-- A port's page fault: a page request, and the access waits for its answer, or, refused, for an entry to free; whether a request is
outstanding (R258, R259, R370). -/
def State.portWait (s : State) (i : Instr) (page : W64) (write : Bool) (requester id : Nat) (keep : Bool) : Bool × State :=
  let cur := s.frame.cur
  let q : PageReq := { part := cur.part, asid := s.asid cur.part cur.die, page := page, write := write, pool := 0 }
  let r := s.askPage cur.part cur.die q requester (leBytes 4 id)
  let w : PortWait := { cur := cur, i := i, page := if r.1 = 1 then some page else none, write := write }
  (r.1 == 1, if keep then { r.2 with waits := r.2.waits ++ [w] } else r.2)

/-- Whether a request of a queue pair waits. -/
def PortWait.ofQp (w : PortWait) (qp : Nat) : Bool :=
  match w.i with
  | .networkWorkRequest r => r.qp == qp && (w.unasked || !turnedBack r)
  | _ => false
def waitsQp (l : List PortWait) (qp : Nat) : Bool := l.any (·.ofQp qp)
/-- Bytes of a partition's writes that the storage port holds. -/
def heldBytes (l : List PortWait) (part : Nat) : Nat :=
  (l.map fun w => match w.i with
    | .storageDma r => if r.write && w.cur.part == part && !w.gives then r.len else 0
    | _ => 0).sum

/-- The port requests that gave way, and what waits of virtual functions, tried again in each PCC cycle, in their order (R272, R345). -/
def State.portRetries (s : State) : List Todo :=
  ((s.waits.filter (·.gives)).map fun w => .exec w.cur w.i) ++ s.pkg.hostq.map fun w => .host w.1 w.2
/-- A request put behind those that wait, to be tried in the next PCC cycle. -/
def State.giveWay (s : State) (part : Nat) (i : Instr) (write : Bool) : State :=
  { s with waits := s.waits ++ [{ cur := { s.frame.cur with part := part }, i := i, page := none, write := write, gives := true }] }

/-- The accesses of a request's rings and buffer give way to others (R345). -/
def State.netWaits (s : State) (part die : Nat) (r : NetReq) : Bool :=
  (r.rings.any fun a => s.givesWayOn part die a.va a.len) || s.givesWayOn part die r.va r.len
/-- The first page of a request's ring accesses, then of its buffer, that faults, and its direction (R369, R370). -/
def State.netFault (s : State) (part die : Nat) (r : NetReq) : Option (W64 × Bool) :=
  match r.rings.findSome? fun a => (s.portFault part die a.va a.len a.write).map fun p => (p, a.write) with
  | some p => some p
  | none => (s.portFault part die r.va r.len r.write).map fun p => (p, r.write)
/-- Bytes written by the port, where they translate. -/
def State.portPut (s : State) (part die : Nat) (va : W64) (bs : List Byte) : State :=
  match s.agentWrite part die va bs with
  | .ok t => t
  | .error _ => s
/-- A request's accesses of its rings; what the port writes there has no stated layout. -/
def State.netRings (s : State) (part die : Nat) (r : NetReq) : State :=
  r.rings.foldl (fun (s : State) a =>
    if a.write then s.draw.2.portPut part die a.va (openBytes s.ctr a.len) else s.accessed part die a.va a.len false) s
/-- What an atomic leaves at its target: the sum, or the new value where the old one compares equal (R369). -/
def netAtomic (op : NetOp) (old : W64) : W64 :=
  match op with
  | .fetchAdd v => old + v
  | .cmpSwap c v => if old = c then v else old
  | _ => old
/-- A request's access of its buffer. -/
def State.netBuffer (s : State) (part die : Nat) (r : NetReq) : State :=
  if r.atomic then
    match s.agentRead part die r.va 8 with
    | .ok (l, t) => t.portPut part die r.va (leBytes 8 (netAtomic r.op (BitVec.ofNat 64 (leNat l))).toNat)
    | .error _ => s
  else if r.write then s.portPut part die r.va r.data
  else s.accessed part die r.va r.len false
/-- A request of the network port that translates: its accesses, with the bytes received and sent (R352, R369). -/
def State.netRun (s : State) (part die : Nat) (r : NetReq) : State :=
  let t := (s.netRings part die r).netBuffer part die r
  let u := if r.write then t.count part die 0x41 r.len else t
  if r.write && !r.atomic then u else u.count part die 0x40 r.len

/-- NETWORK_WORK_REQUEST: a work request or an inbound packet of a queue pair, on the partition the hypervisor has assigned the pair to:
its accesses of the rings and of the buffer are translated and counted (R254, R369). A page fault stalls the pair in order, but turns
an inbound RC write or UD packet back, counted; refused a page request, either is tried again when an entry of the partition frees
(R370). At background priority it gives way to others (R345). Of a pair that is not assigned, without NET accepted, or in error state,
it is refused (R351, R369, R370); another partition's work request is none of the pair's. -/
def execNetworkWorkRequest (req : NetReq) (s : State) : Host.Outcome State Fault Refusal :=
  let q := s.qp req.qp
  let die := s.frame.cur.die
  let r := { req with ud := q.ud }
  match q.part with
  | none => .next (s.setQp r.qp { q with status := 2 })
  | some part =>
    let back := if r.ud then { q with drops := q.drops + 1 } else { q with rnr := q.rnr + 1 }
    let ahead := s.waits.filter (·.ofQp r.qp)
    let w : PortWait := { cur := { s.frame.cur with part := part }, i := .networkWorkRequest r, page := none, write := r.write,
                          gives := ahead.any (·.gives) }
    if part ≠ s.frame.cur.part ∧ ¬r.inbound then .next s
    else if q.err ∨ ¬(s.part part).accepts 3 then .next (s.setQp r.qp { q with status := 2 })
    else if ¬ahead.isEmpty then
      .next (if turnedBack r && ahead.any (fun x => !x.unasked) && !w.gives then s.setQp r.qp back else { s with waits := s.waits ++ [w] })
    else if s.netWaits part die r then .next (s.giveWay part (.networkWorkRequest r) r.write)
    else
      match s.netFault part die r with
      | some p =>
        let t : State := { s with frame := { s.frame with cur := { s.frame.cur with part := part } } }
        let u := t.portWait (.networkWorkRequest r) p.1 p.2 2 r.qp true
        .next ({ u.2 with frame := s.frame }.setQp r.qp (if turnedBack r && u.1 then back else q))
      | none => .next ((s.netRun part die r).setQp r.qp { q with status := 0 })

/-- The binding that an inbound DMA takes: the one valid entry of its requester ID, not in error (R375). -/
def State.binding (s : State) (rid : BitVec 16) : Option Nat :=
  match s.pkg.stobind.filter fun e => bindValid e.2 && bindRid e.2 == rid with
  | [e] => if bindErr e.2 then none else some (bindPart e.2)
  | _ => none

/-- STORAGE_DMA: an access of a bound requester to its partition's memory; unbound, doubly bound, in error, or without STOR
accepted it is refused (R351, R371, R375). A page fault queues a page request and holds the access until its answer, a write in the partition's 256 KiB
buffer; a write that finds it full puts the binding in error (R370); at background priority it gives way to others, behind those of its requester that wait so (R272, R345). -/
def execStorageDma (r : DmaReq) (s : State) : Host.Outcome State Fault Refusal :=
  match s.binding r.rid with
  | none => .next s
  | some part =>
    let die := s.frame.cur.die
    let behind := s.waits.any fun w => w.gives && match w.i with
      | .storageDma q => q.rid == r.rid
      | _ => false
    if ¬(s.part part).accepts 4 then .next s
    else if behind || s.givesWayOn part die r.va r.len then .next (s.giveWay part (.storageDma r) r.write)
    else
      match s.portFault part die r.va r.len r.write with
      | some page =>
        let full := r.write && decide (262144 < heldBytes s.waits part + r.len)
        let t := ({ s with frame := { s.frame with cur := { s.frame.cur with part := part } } }.portWait (.storageDma r) page r.write 3
          r.rid.toNat (!full)).2
        .next (if full then (t.bindError r.rid).portError part page r.rid.toNat else t)
      | none =>
        let s1 := if r.write then
            match s.agentWrite part die r.va r.data with
            | .ok t => t
            | .error _ => s
          else s.accessed part die r.va r.len false
        .next (s1.count part die 0x50 r.len)

/-! ## The requests of a partition that is reset (R343) -/

/-- The port requests of a partition that have only given way complete (R343, step 2). -/
def State.finishPorts (s : State) (part : Nat) : State :=
  let mine := s.waits.filter fun w => w.gives && w.cur.part == part
  let s0 : State := { s with waits := s.waits.filter fun w => !(w.gives && w.cur.part == part) }
  let t := mine.foldl (fun (s : State) w =>
    let u : State := { s with frame := { s.frame with cur := w.cur } }
    match w.i with
    | .networkWorkRequest r => goOn s (execNetworkWorkRequest r u)
    | .storageDma r => goOn s (execStorageDma r u)
    | _ => s) s0
  { t with frame := s.frame }
/-- The records of a partition that wait are written. -/
def State.finishHeld (s : State) (part : Nat) : State :=
  let mine := s.pkg.held.filter fun h => h.part == part
  mine.foldl State.offer { s with pkg := { s.pkg with held := s.pkg.held.filter fun h => h.part != part } }

end Sys2Proof.Machine
end

