-- ==== Sys2Proof/Machine/Partition.lean ====
section
/-!
DEFINITION. Partitions: the record and the hypervisor's commands (R337 to R339, R343, R353), the kernel's and the
hypervisor's registers (R287, R318, R324, R332, R340, R341, R351, R352, R354, R375), and main-memory charging (R344 to
R346).
-/
namespace Sys2Proof.Machine

/-! ## The partition record (R337, R338) -/

/-- A partition record's fields from its 256 bytes; a range whose limit is not above its base is unused (R337). -/
def readPartRec (l : List Byte) : PartRec :=
  let w := fun o n => leNat ((l.drop o).take n)
  { virt := w 0 4 % 2 == 1, vf := BitVec.ofNat 32 (w 4 4), cores := BitVec.ofNat 576 (w 8 72), harts := BitVec.ofNat 64 (w 0x50 8),
    ranges := ((List.range 8).map fun i => (w (0x58 + 16 * i) 8, w (0x60 + 16 * i) 8)).filter fun r => decide (r.1 < r.2),
    netsh := w 0xD8 2, stosh := w 0xDA 2, occbud := BitVec.ofNat 64 (w 0xE0 8), powcap := BitVec.ofNat 32 (w 0xE8 4),
    safeb := BitVec.ofNat 32 (w 0xEC 4) }
/-- A record's reserved bits are zero (R337). -/
def recReservedOk (l : List Byte) : Bool :=
  let w := fun o n => leNat ((l.drop o).take n)
  decide (w 0 4 < 2) && decide (w 0x50 8 < 2 ^ 48) && w 0xDC 4 == 0 && w 0xF0 16 == 0

/-- A partition exists once it is created: its VF is 1 to 48. -/
def Partition.exists_ (p : Partition) : Bool := p.pr.vf != 0
/-- The partitions other than one. -/
def State.others (s : State) (part : Nat) : List Partition :=
  (s.parts.filter fun p => p.1 != part && p.2.exists_).map (·.2)

/-- Two partitions own a core, a hart or a range byte in common. -/
def PartRec.shares (a b : PartRec) : Bool :=
  a.cores &&& b.cores != 0 || a.harts &&& b.harts != 0 ||
    a.ranges.any fun x => b.ranges.any fun y => decide (max x.1 y.1 < min x.2 y.2)

/-- Bytes of the package's main memory: twelve stacks of 48 GB, a GB being 1,000,000,000 bytes (R2, R4). -/
abbrev mainBytes : Nat := 12 * 48 * 10 ^ 9
/-- Whether a record is refused for a partition (R338). RANGES of more bytes, over all partitions, than main memory has are refused:
DESIGN CHOICE, unsafe (assumption 64). -/
def State.recRefused (s : State) (part : Nat) (l : List Byte) : Bool :=
  let r := readPartRec l
  let o := (s.others part).map (·.pr)
  !recReservedOk l || r.vf == 0 || decide (48 < r.vf.toNat) || o.any (fun q => q.vf == r.vf || q.shares r) || r.harts == 0 ||
    decide (1024 < (o.map (·.netsh)).sum + r.netsh) || decide (1024 < (o.map (·.stosh)).sum + r.stosh) ||
    decide (mainBytes < (o.map (·.total)).sum + r.total)

/-! ## Commands (R339) -/

/-- The physical address PCMD holds. -/
def State.pcmdAddr (s : State) : Nat := (s.pkg.pcmd.extractLsb' 6 48).toNat * 64
/-- The running command ends: its error, or 2 where another was written meanwhile (R339). -/
def State.endCommand (s : State) (err : Nat) : State :=
  { s with pkg := { s.pkg with pcmdErr := if s.pkg.again then 2 else err, pcmdBusy := false, again := false } }
/-- A write of PCMDGO: ignored while a command runs; else the command runs, refused with an error or BUSY (R339). -/
def State.command (s : State) (op : Nat) (body : State → Except Nat State) : State :=
  if s.pkg.pcmdBusy then { s with pkg := { s.pkg with again := true } }
  else
    let s1 := { s with pkg := { s.pkg with pcmdgo := BitVec.ofNat 64 (256 * op + s.frame.cur.part % 64), pcmdBusy := true,
                                           cmdAddr := s.pcmdAddr } }
    match body s1 with
    | .ok t => t
    | .error e => s1.endCommand e
/-- A command that is done at once. -/
def done (s : State) : Except Nat State := .ok (s.endCommand 0)

/-- PART_CREATE: a partition from its record, or a refusal (R338, R339). Pages 0 to 47 are the partitions' (R375). -/
def execPartCreate (s : State) : Host.Outcome State Fault Refusal :=
  .next (s.command 1 fun s =>
    let part := s.frame.cur.part
    let l := s.mem.readBytes s.pcmdAddr 256
    if 48 ≤ part then .error 5
    else if (s.part part).exists_ || s.recRefused part l then .error 1
    else done (s.setPart part { pr := readPartRec l }).recap)

/-- Whether a partition has a launch queued or placed. -/
def State.hasLaunch (s : State) (part : Nat) : Bool := s.launches.any fun l => l.part == part

/-- PART_REMOVE: a partition without a launch is removed, with its queue pairs' assignment, else busy (R339, R369). Page-request
entries held keep their place (R258). -/
def execPartRemove (s : State) : Host.Outcome State Fault Refusal :=
  .next (s.command 2 fun s =>
    let part := s.frame.cur.part
    if ¬(s.part part).exists_ then .error 5
    else if s.hasLaunch part then .error 2
    else done { s with parts := s.parts.del part, tx := s.tx.filter fun t => t.1 / 3 ≠ part,
                        pkg := { s.pkg with qps := s.pkg.qps.filter fun q => q.2.part ≠ some part } })

/-- PART_UPDATE_BUDGETS: OCCBUD, POWCAP, SAFEB, NETSH and STOSH read again (R339). -/
def execPartUpdateBudgets (s : State) : Host.Outcome State Fault Refusal :=
  .next (s.command 4 fun s =>
    let part := s.frame.cur.part
    let p := s.part part
    let l := s.mem.readBytes s.pcmdAddr 256
    let r := readPartRec l
    if ¬p.exists_ then .error 5
    else if s.recRefused part l then .error 1
    else
      let q := { p.pr with occbud := r.occbud, powcap := r.powcap, safeb := r.safeb, netsh := r.netsh, stosh := r.stosh }
      done (s.setPart part { p with pr := q }).recap)

/-! ## Reset (R343) -/

/-- An engine's accepted routine run to its end, of at most so many core cycles. -/
def State.drainEngine (e : Bool) : Nat → State → State
  | 0, s => s
  | n + 1, s =>
    match (s.core.eng e).run with
    | none => s
    | some r =>
      if r.done then goOn s (execMend s)
      else
        let s1 := if r.started then s else goOn s (execEngineStart s)
        let g := (s1.core.eng e).tick fun _ => false
        let s2 := s1.setCore (s1.core.setEng e g.1)
        State.drainEngine e n (if g.2 then goOn s2 s2.runReached else s2)
/-- A block transfer completed, as far as its pages translate. -/
def State.drainCopy (s : State) (core : Nat) (c : CopyCmd) : State :=
  let c0 := if c.begun then c else c.begin_
  let r := if c0.shape.dec then s.decodeReads core c0 1048576 else s.readEls core c0 fun _ => true
  let w := r.1.writeEls core r.2.1 fun _ => true
  w.1.chargeMoved core c0 (c0.moved + (c0.els.map (·.n)).sum - (w.2.1.els.map (·.n)).sum)
/-- A stream completed, as far as its pages translate. -/
def State.drainStream (s : State) (core : Nat) (st : Stream) : State :=
  let n := (st.len - st.pos) / 8
  let put := fun (s : State) (i : Nat) (bs : List Byte) => s.setCoreAt core ((s.coreAt core).deliverBytes (st.s + 8 * i) bs)
  (List.range n).foldl (fun (s : State) k =>
    let i := st.pos / 8 + k
    match SMap.find st.words i with
    | some v => put s i (leBytes 8 v.toNat)
    | none =>
      match s.agentRead (s.partOfCore core) (dieOf core) (st.va + BitVec.ofNat 64 (8 * i)) 8 with
      | .ok (l, t) => put t i l
      | .error _ => s) (s.charge core 5 ((8 * n + 63) / 64))
/-- A CATOM completed, where its page translates. -/
def State.drainCatom (s : State) (core : Nat) (c : CatomCmd) : State :=
  let part := s.partOfCore core
  match s.agentRead part (dieOf core) c.va 8 with
  | .error _ => s
  | .ok (l, t) =>
    match t.agentWrite part (dieOf core) c.va (leBytes 8 (BitVec.ofNat 64 (leNat l) + c.add).toNat) with
    | .ok u => u
    | .error _ => s

/-- The accesses, accepted routines, copies, streams, CATOMs and released XFER entries of a core completed (R343, step 2). -/
def State.drainCore (s : State) (core : Nat) : State :=
  let k := s.coreAt core
  let cur : Cursor := { part := s.partOfCore core, die := dieOf core, core := core }
  let s1 := (s.setCoreAt core { k with accs := k.accs.map fun a => { a with due := 0 } }).performDue core
  let s2 := [false, true].foldl (fun (s : State) e =>
    State.drainEngine e 4294967296 { s with frame := { s.frame with cur := { cur with eng := e } } }) s1
  let s3 := k.ce.buf.foldl (fun (s : State) c => s.drainCopy core c) { s2 with frame := s.frame }
  let s4 := (k.ce.ch0 ++ k.ce.ch1).foldl (fun (s : State) st => s.drainStream core st) s3
  let s5 := k.ce.catoms.foldl (fun (s : State) c => s.drainCatom core c) s4
  match s5.launchAt core with
  | none => s5
  | some l =>
    ((List.range 4).flatMap fun c => (k.ctx c).xfers.filter fun e => e.rel.isSome).foldl (fun (s : State) e => s.finishXfer l core e) s5

/-- A core of a reset partition: nothing placed, every row and slot zero, its rings and tables cleared (R343, step 4). -/
def Core.wiped (k : Core) (pcc : Nat) : Core :=
  let f := k.freed pcc
  { f with ctxs := [], rows := { f.rows with errs := [] } }

/-- A translation block at a partition reset: its registers zero (R343, step 5). -/
def TxBlock.wiped (b : TxBlock) : TxBlock := { filter := b.filter, counters := b.counters }

/-- A partition at a partition reset (R341, R343): CELBASE and the record stay; occupancy and energy are not cleared. -/
def Partition.wiped (p : Partition) : Partition :=
  { p with resetting := true, hcode := 0, hentry := 0, cel := { base := p.cel.base }, facc := [], flockErr := false, flock := false,
           llbase := 0, llidx := 0, perrbase := 0, perridx := 0, gtxw := [] }

/-- Whether an interrupt is of a partition: to a hart of its, or of its VF. -/
def Irq.ofPart (q : Irq) (part : Nat) (p : Partition) : Bool :=
  match q with
  | .hart h _ _ => p.pr.harts.getLsbD h
  | .vf n _ => n == part
  | .pf0 _ => false

/-- A partition's priority. -/
def State.withBg (s : State) (part : Nat) (b : Bool) : State := s.setPart part { s.part part with bg := b }
/-- The launch activity of a partition ended as a reset ends it: drained, leases refunded, paused ones too, launches discarded,
dumps abandoned (R343, steps 1 to 3, R350). -/
def State.dropLaunches (s : State) (part : Nat) : State :=
  let mine := s.launches.filter fun l => l.part == part
  let placed := mine.filter fun l => l.status == .placed
  let s0 := mine.foldl State.endPaused ((s.finishPorts part).finishHeld part)
  let s1 := placed.foldl (fun (s : State) l => l.cores.foldl State.drainCore (s.endLeases l)) s0
  let s2 := (placed.flatMap (·.cores)).foldl (fun (s : State) c => s.setCoreAt c ((s.coreAt c).freed s.pcc)) s1
  { s2 with launches := s2.launches.filter fun l => l.part != part, dumps := s2.dumps.filter fun d => d.part != part }

/-- A partition's state zeroed and its registers reset (R343, steps 4 to 6). -/
def State.wipe (s : State) (part : Nat) : State :=
  let p := s.part part
  let s1 := p.coreList.foldl (fun (s : State) c => s.setCoreAt c ((s.coreAt c).wiped s.pcc)) s
  let s2 := (List.range 3).foldl (fun (s : State) d => s.setTx part d (s.txAt part d).wiped) s1
  let s3 := { s2 with prq := s2.prq.filter fun e => e.2.part != part, waits := s2.waits.filter fun w => w.cur.part != part,
                      irqs := s2.irqs.filter fun q => !q.ofPart part p }
  s3.setPart part p.wiped

/-- PART_RESET: the steps of R343; BUSY until reset-done, within 4 ms. What its requests wait for at background priority is not waited
for any more, since those issued complete. -/
def execPartReset (s : State) : Host.Outcome State Fault Refusal :=
  .next (s.command 3 fun s =>
    let part := s.frame.cur.part
    if ¬(s.part part).exists_ then .error 5
    else
      let d := s.draw
      let b := (s.part part).bg
      .ok (((((d.2.withBg part false).dropLaunches part).withBg part b).wipe part).later (s.pcc + 1 + Config.resetLatency d.1 % 12000000) s.frame.cur .resetDone))

/-- RESET_DONE: the reset completes; reset-done is raised at the lowest hart and as VF vector 0 (R342, R343, R363). -/
def execResetDone (s : State) : Host.Outcome State Fault Refusal :=
  let part := s.frame.cur.part
  let p := s.part part
  if ¬p.resetting then .next s
  else
    let s1 := s.setPart part { p with resetting := false, quiesced := false }
    .next (((s1.raiseIrq (.hart p.lowHart 7 0)).raiseIrq (.vf part 0)).endCommand 0)

/-! ## Migration (R353) -/

/-- The bytes of an area: the spec does not state their layout but for the saved launches (R353, assumption 14). -/
opaque areaBytes : AreaImage → List Byte
/-- An image whose bytes may stand at an address: a free value. -/
opaque areaImage : Memory → Nat → AreaImage
/-- What the area at an address holds: an image whose bytes stand there, one that this device has written or one of another's; none
where no image's do. -/
def State.areaAt (s : State) (a : Nat) : Option AreaImage :=
  match s.pkg.areas.find? fun x => s.mem.readBytes a x.1.length == x.1 with
  | some x => some x.2
  | none =>
    let im := areaImage s.mem a
    if s.mem.readBytes a (areaBytes im).length == areaBytes im then some im else none
/-- The sample-buffer registers of a core (R332, R353). -/
def Trace.samples (t : Trace) : Trace := { sbctl := t.sbctl, unrec := t.unrec, lostPend := t.lostPend, seq := t.seq }
def Trace.withSamples (t u : Trace) : Trace := { t with sbctl := u.sbctl, unrec := u.unrec, lostPend := u.lostPend, seq := u.seq }

/-- FEAT0; FEAT1 to FEAT3 are zero (R351). -/
def feat0 : W64 := 0x7F
/-- Accepted words that are a subset of the device's (R351). -/
def faccOk (m : SMap W64) : Bool :=
  SMap.get (0 : W64) m 0 &&& ~~~feat0 == 0 && (List.range 3).all fun i => SMap.get (0 : W64) m (i + 1) == 0

/-- A launch whose paused leases have ended: its requested points become 6 (R350). -/
def Launch.unleased (l : Launch) : Launch :=
  { l with saved := l.saved.map fun k => if k.lease.isSome then { k with lease := none, pwr := { k.pwr with req := 6 } } else k }

/-- PART_QUIESCE: no launch is placed any more; those placed with a save area are pre-empted into the migration area, and
leases end, paused ones too (R350, R353). Without DLOG accepted the partition cannot be quiesced (R351). -/
def execPartQuiesce (s : State) : Host.Outcome State Fault Refusal :=
  .next (s.command 5 fun s =>
    let part := s.frame.cur.part
    let p := s.part part
    if ¬p.exists_ then .error 5
    else if ¬p.accepts 6 then .error 1
    else
      let mine := s.launches.filter fun l => l.part == part
      let s0 := mine.foldl State.endPaused (s.setPart part { p with quiesced := true })
      let s1 := (mine.filter (·.status == .placed)).foldl State.endLeases s0
      let mark := fun (l : Launch) =>
        if l.part = part ∧ l.status = .placed ∧ l.lr.save ≠ 0 then
          { l with preempt := true, area := some (s.pcmdAddr + Config.areaOffset (s.ctr + l.tag.toNat)) }
        else if l.part = part then l.unleased else l
      .ok { s1.draw.2 with launches := s1.launches.map mark })

/-- A quiesce ends when no launch of the partition is placed and no dump of it is left; the area then holds everything
(R353). -/
def State.quiesceEnd (s : State) : State :=
  let part := s.pkg.pcmdgo.toNat % 64
  if ¬s.pkg.pcmdBusy ∨ s.pkg.pcmdgo.toNat / 256 ≠ 5 ∨ s.dumps.any (fun d => d.part == part) ∨
      s.launches.any (fun l => l.part == part && l.status == .placed) then s
  else
    let a := s.pkg.cmdAddr
    let mine := s.launches.filter fun l => l.part == part
    let place := fun (l : Launch) => a + Config.areaOffset (s.ctr + l.tag.toNat)
    let m1 := mine.foldl (fun (m : Memory) l =>
      if l.status = .saved ∧ l.area.isNone then
        (savePieces l (l.cores.zip l.saved) l.saveP).foldl (fun (m : Memory) p => m.writeBytes (place l + p.1) p.2) m
      else m) s.mem
    let im : AreaImage :=
      { base := a, p := s.part part, tx := (List.range 3).map fun d => s.txAt part d,
        launches := mine.map fun l => if l.status = .saved ∧ l.area.isNone then { l with area := some (place l) } else l,
        samples := (s.part part).coreList.map fun c => (s.coreAt c).tr.samples }
    ({ s with mem := m1.writeBytes a (areaBytes im), ctr := s.ctr + 1,
              pkg := { s.pkg with areas := (areaBytes im, im) :: s.pkg.areas } }).endCommand 0

/-- Whether a saved launch can be placed on a partition's cores: as many, so distributed over the dies, that pass R27
(R353). -/
def State.canPlace (s : State) (part : Nat) (l : Launch) : Bool :=
  let ok := (s.part part).coreList.filter fun c => (wordStatus l.lr.ppw (s.coreAt c).rows).isNone
  l.status != .saved || diePerms.any fun perm => (takeCores ok perm l.cores).isSome

/-- A block's counters at import: an enabled one whose event this device lacks takes UNAV (R352). -/
def TxBlock.imported (b : TxBlock) : TxBlock :=
  { b with counters := b.counters.mapVal fun _ (c : Counter) =>
      if c.en && !catalogue.contains c.event.toNat then { c with unav := true } else c }
/-- The CNTCHG bits of a die's block: 16 a die. -/
def TxBlock.changes (b : TxBlock) (die : Nat) : W64 :=
  b.counters.foldl (fun w c =>
    if c.2.en && !catalogue.contains c.2.event.toNat then w ||| BitVec.ofNat 64 (2 ^ (16 * die + c.1)) else w) 0

/-- A launch of an area placed in this device's area and partition. -/
def Launch.imported (l : Launch) (part src dst : Nat) : Launch := { l with part := part, area := l.area.map fun b => b - src + dst }

/-- PART_IMPORT: the partition takes the record at the command's address, and its registers and launches from the migration area
that follows it, after the checks of the record, the features and the placement; counters whose events are absent are marked beside
those marked before. Bytes that are no area are refused (R338, R352, R353; assumption 52). -/
def execPartImport (s : State) : Host.Outcome State Fault Refusal :=
  .next (s.command 6 fun s =>
    let part := s.frame.cur.part
    let l := s.mem.readBytes s.pcmdAddr 256
    let a := s.pcmdAddr + 256
    let p := { s.part part with pr := readPartRec l }
    if 48 ≤ part then .error 5
    else if s.recRefused part l then .error 1
    else
    match s.areaAt a with
    | none => .error 1
    | some im =>
    if ¬faccOk im.p.facc then .error 3
    else if ¬im.launches.all ((s.setPart part p).canPlace part) then .error 4
    else
      let ch := im.tx.zipIdx.foldl (fun (w : W64) b => w ||| b.1.changes b.2) 0
      let q := { p with quiesced := false, lqcpl := im.p.lqcpl, lqcplrd := im.p.lqcplrd, cplCount := im.p.cplCount,
                        cplRead := im.p.cplRead, cplHeld := im.p.cplHeld, cplLast := im.p.cplLast, hcode := im.p.hcode,
                        hentry := im.p.hentry, cel := im.p.cel, facc := im.p.facc, flockErr := im.p.flockErr,
                        flock := im.p.flock, cntchg := p.cntchg ||| im.p.cntchg ||| ch }
      let s1 := im.tx.zipIdx.foldl (fun (s : State) b => s.setTx part b.2 b.1.imported) (s.setPart part q)
      let s2 := (p.coreList.zip im.samples).foldl (fun (s : State) x =>
        s.setCoreAt x.1 { s.coreAt x.1 with tr := (s.coreAt x.1).tr.withSamples x.2 }) s1
      let s3 := { s2 with launches := s2.launches ++ im.launches.map fun (l : Launch) => l.imported part im.base a }
      done (if ch = 0 then s3 else s3.raiseIrq (.hart p.lowHart 6 0)).recap)

/-! ## Registers with a behaviour (R340, R341, R351, R352, R354) -/

/-- GTXW1_READ: a read that returns VALID removes the oldest recorded write (R341). -/
def execGtxw1Read (s : State) : Host.Outcome State Fault Refusal :=
  let p := s.part s.frame.cur.part
  .next (s.setPart s.frame.cur.part { p with gtxw := p.gtxw.drop 1 })

/-- VFIRQ: raises VF vector VEC where it is 4 or more (R341, R363). -/
def execVfirq (v : W64) (s : State) : Host.Outcome State Fault Refusal :=
  let n := (v.extractLsb' 0 5).toNat
  if 4 ≤ n then .next (s.raiseIrq (.vf s.frame.cur.part n)) else .next s

/-- STOCLR: the error state of the storage binding of requester RID cleared, if it is the partition's (R341, R370). -/
def execStoclr (v : W64) (s : State) : Host.Outcome State Fault Refusal :=
  let clear := fun (_ : Nat) (w : W64) =>
    if bindValid w && bindRid w == v.setWidth 16 && bindPart w == s.frame.cur.part then w &&& ~~~0x4000000000000000 else w
  .next { s with pkg := { s.pkg with stobind := s.pkg.stobind.mapVal clear } }

/-- FLOCK: LOCK = 1 locks the accepted words, or is refused with ERR (R351). -/
def execFlock (v : W64) (s : State) : Host.Outcome State Fault Refusal :=
  let part := s.frame.cur.part
  let p := s.part part
  if p.flock ∨ ¬v.getLsbD 0 then .next s
  else if (SMap.get (0 : W64) p.facc 0).getLsbD 0 && faccOk p.facc then
    .next (s.setPart part { p with flock := true, flockErr := false })
  else .next (s.setPart part { p with flockErr := true })

/-- COUNTER_SELECT: a new event; one outside the catalogue sets UNAV, which freezes the counter (R335, R352). -/
def execCounterSelect (idx : BitVec 4) (v : W64) (s : State) : Host.Outcome State Fault Refusal :=
  let part := s.frame.cur.part
  let b := s.txAt part s.frame.cur.die
  let c := SMap.get ({} : Counter) b.counters idx.toNat
  let e : BitVec 16 := v.setWidth 16
  let d : Counter := { c with event := e, en := v.getLsbD 63, unav := !catalogue.contains e.toNat }
  .next (s.setTx part s.frame.cur.die { b with counters := b.counters.put idx.toNat d })

/-- CNTCHG_READ: a read returns the bits and clears them (R352). -/
def execCntchgRead (s : State) : Host.Outcome State Fault Refusal :=
  .next (s.setPart s.frame.cur.part { s.part s.frame.cur.part with cntchg := 0 })

/-- A write of SNAP: BUSY, and the other bitmap from the next cycle on (R354). -/
def State.snap (s : State) : State :=
  let part := s.frame.cur.part
  let p := s.part part
  (s.setPart part { p with dlog := { p.dlog with snap := true, busy := true } }).later (s.pcc + 1) s.frame.cur .dlogSnapDone
/-- The switch of the bitmaps at the beginning of the next cycle. -/
def Partition.switchLog (p : Partition) : Partition :=
  if p.dlog.snap then { p with dlog := { p.dlog with snap := false, active := !p.dlog.active } } else p

/-- DLOG_SNAP (R354, R375). -/
def execDlogSnap (s : State) : Host.Outcome State Fault Refusal := .next (if reservedPage s.frame.cur.part then s else s.snap)
/-- DLOG_SNAP_DONE: a write sets its bit in the step that performs it, so BUSY clears (R354). -/
def execDlogSnapDone (s : State) : Host.Outcome State Fault Refusal :=
  let p := s.part s.frame.cur.part
  .next (s.setPart s.frame.cur.part { p with dlog := { p.dlog with busy := false } })

/-! ## Charging (R344 to R346) -/

/-- A DRAM command's charge in 1/16 ns (R344). -/
def dramCost (c : DramCmd) : Nat :=
  match c with
  | .activate => 192 | .readBurst => 10 | .writeBurst => 10 | .turnaround => 64 | .overhead _ => 0
/-- Its catalogue event and energy class, if any (R346, R352). -/
def dramCounted (c : DramCmd) : Option (Nat × Nat) :=
  match c with
  | .activate => some (3, 12) | .readBurst => some (1, 13) | .writeBurst => some (2, 13) | _ => none
/-- A charge of the occupancy in a PCC cycle; beyond OCCBUD * 16 BG is set, which acts from the next cycle on (R344, R345). -/
def Partition.occupy (p : Partition) (n pcc : Nat) : Partition :=
  let spent := p.pr.occbud != BitVec.allOnes 64 && decide (16 * p.pr.occbud.toNat < p.occuse + n)
  { p with occuse := p.occuse + n, bg := p.bg || spent, bgAt := if p.bg || !spent then p.bgAt else pcc }

/-- The weight of a controller's event class (R346). -/
def State.controllerWeight (s : State) (cls : Nat) : Nat :=
  (SMap.get (0 : BitVec 16) s.pkg.weights (16 * (Config.controllerSet % 8) + cls)).toNat

/-- DRAM_COMMAND: a controller of the cursor's die charges a command to the partition whose request caused it; one of the device's
own charges no partition, and its activation or burst goes to the overhead account (R344, R346, R347). -/
def execDramCommand (cmd : DramCmd) (s : State) : Host.Outcome State Fault Refusal :=
  let part := s.frame.cur.part
  let die := s.frame.cur.die
  match cmd with
  | .overhead none => .next s
  | .overhead (some burst) =>
    .next { s with pkg := { s.pkg with ovhenergy := s.pkg.ovhenergy + s.controllerWeight (if burst then 13 else 12) } }
  | _ =>
    let p := (s.part part).occupy (dramCost cmd) s.pcc
    let s1 := (s.setPart part p).count part die 4 (dramCost cmd)
    match dramCounted cmd with
    | none => .next s1
    | some (ev, cls) =>
      .next ((s1.setPart part { s1.part part with penergy := p.penergy + s.controllerWeight cls }).count part die ev 1)

/-- OCCUPANCY_WINDOW_END: at a PCC multiple of 300,000 OCCLAST takes the window's charge, OCCUSE and BG are cleared, for
every partition (R344, R345). -/
def execOccupancyWindowEnd (s : State) : Host.Outcome State Fault Refusal :=
  if s.pcc % 300000 = 0 then
    .next { s with parts := s.parts.mapVal fun _ (p : Partition) => { p with occlast := p.occuse, occuse := 0, bg := false } }
  else .next s

/-! ## Register writes -/

/-- A field of a watch filter's entry written (R260): page, ASID, enables, mask. -/
def WatchEntry.set (e : WatchEntry) (field : BitVec 2) (v : W64) : WatchEntry :=
  match field.toNat with
  | 0 => { e with page := v &&& ~~~0xFFF }
  | 1 => { e with asid := v.setWidth 16 }
  | 2 => { e with rd := v.getLsbD 0, wr := v.getLsbD 1 }
  | _ => { e with mask := v }

/-- A STOBIND register written: reserved bits stay zero, and ERR is only cleared (R375). -/
def bindWrite (old v : W64) : W64 := v &&& 0x80000000003FFFFF ||| (old &&& v &&& 0x4000000000000000)

/-- A queue pair as the hypervisor assigns it (R369): no register of the spec carries the assignment, and the model's has the partition
in bits [5:0], the datagram service in bit 6 and the assignment in bit 63: DESIGN CHOICE, unsafe (assumption 74). -/
def pairOf (v : W64) : QueuePair :=
  { part := if v.getLsbD 63 then some (v.extractLsb' 0 6).toNat else none, ud := v.getLsbD 6 }

/-- Whether MBXBASE may hold a page: 0, or one of the RANGES (R362). -/
def PartRec.mailboxOk (r : PartRec) (a : W64) : Bool := a == 0 || (r.holds a.toNat && r.holds (a.toNat + 4095))

/-- REGISTER_WRITE: the value stored in the register of the cursor's place, its reserved bits zero (R6); a write to a reserved page
of the hypervisor window is ignored (R375), and so is one of MBXBASE that names a page outside RANGES (R362; assumption 54). -/
def execRegisterWrite (r : DevReg) (v : W64) (s : State) : Host.Outcome State Fault Refusal :=
  let part := s.frame.cur.part
  let die := s.frame.cur.die
  let p := s.part part
  let b := s.txAt part die
  let g := s.pkg
  if reservedPage part then .next s
  else
  match r with
  | .lqcpl => .next (s.setPart part { p with lqcpl := v &&& ~~~0xFFF })
  | .lqcplrd =>
    let n := min (((v &&& 0xFF) - (p.lqcplrd &&& 0xFF)).toNat % 256) (p.cplCount - p.cplRead)
    .next (s.setPart part { p with lqcplrd := v &&& 0xFF, cplRead := p.cplRead + n })
  | .hcode => .next (s.setPart part { p with hcode := v })
  | .hentry => .next (s.setPart part { p with hentry := v })
  | .celbase => .next (s.setPart part { p with cel := { p.cel with base := v &&& ~~~0x3FFF00 } })
  | .celack => .next (s.setPart part { p with cel := { p.cel with ridx := v.setWidth 32 } })
  | .tenkey i => .next (s.setPart part { p with cel := { p.cel with tenkey := p.cel.tenkey.put i.toNat v } })
  | .audkey i => .next (s.setPart part { p with cel := { p.cel with audkey := p.cel.audkey.put i.toNat v } })
  | .keyctl => .next (s.setPart part { p with cel := { p.cel with keyctl := v &&& 3 } })
  | .prqbase => .next (s.setTx part die { b with prqbase := v &&& ~~~0x3FFF })
  | .watchbase => .next (s.setTx part die { b with watchbase := v &&& ~~~0xFFF })
  | .watchEntry i f =>
    .next (s.setTx part die { b with filter := b.filter.put i.toNat ((SMap.get {} b.filter i.toNat).set f v) })
  | .pcmd => .next { s with pkg := { g with pcmd := v &&& 0x3FFFFFFFFFFFC0 } }
  | .llbase => .next (s.setPart part { p with llbase := v &&& ~~~0x3FF })
  | .perrbase => .next (s.setPart part { p with perrbase := v &&& ~~~0x7FF })
  | .facc i => if p.flock then .next s else .next (s.setPart part { p with facc := p.facc.put i.toNat v })
  | .dlogbase => .next (s.setPart part { p with dlog := { p.dlog with base := v } })
  | .dlogctl =>
    let s1 := s.setPart part { p with dlog := { p.dlog with en := v.getLsbD 0 } }
    .next (if v.getLsbD 1 then s1.snap else s1)
  | .mbxbase =>
    if p.pr.mailboxOk (v &&& ~~~0xFFF) then .next (s.setPart part { p with mbxbase := v &&& ~~~0xFFF }) else .next s
  | .hevbase => .next { s with pkg := { g with hevbase := v &&& ~~~0x1FFF } }
  | .hevrd => .next { s with pkg := { g with hevrd := v.setWidth 32 } }
  | .stobind r => .next { s with pkg := { g with stobind := g.stobind.put r.toNat (bindWrite (SMap.get 0 g.stobind r.toNat) v) } }
  | .qpair n => .next { s with pkg := { g with qps := g.qps.put n.toNat (pairOf v) } }
  | .jname => .next { s with jname := s.jname.put s.frame.cur.hart (v &&& 0xFFFFFFFFFFFF) }
  | .weight op cls =>
    let w : BitVec 16 := v.setWidth 16
    let lo := Config.weightMin cls.toNat
    let hi := Config.weightMax cls.toNat
    let x := if w.toNat < lo.toNat then lo else if hi.toNat < w.toNat then hi else w
    .next { s with pkg := { g with weights := g.weights.put (16 * op.toNat + cls.toNat) x } }

/-- SBCTL_WRITE: the control block's address of the cursor's core, if it is the partition's and SAMPLE is accepted; the
count of unrecorded drops is cleared (R330, R332, R351). Another buffer begins with SEQ 0 and no LOST record pending. -/
def execSbctlWrite (v : W64) (s : State) : Host.Outcome State Fault Refusal :=
  let p := s.part s.frame.cur.part
  let k := s.core
  if ¬p.accepts 5 ∨ ¬p.pr.cores.getLsbD s.frame.cur.core then .next s
  else
    let a := v &&& ~~~0x3F
    let t := if a = k.tr.sbctl then k.tr else { k.tr with sbctl := a, seq := 0, lostPend := 0 }
    .next (s.setCore { k with tr := { t with unrec := 0 } })

end Sys2Proof.Machine
end

