-- ==== Sys2Proof/Machine/Host.lean ====
section
/-!
DEFINITION. What reaches the device from outside it: answers to page requests (R258, R259, R370), the mailbox and host accesses (R361,
R362), Deceg boundaries (R355, R367, R368), boot and attestation (R372, R373), the package cap and the module (R375, R377), and cold
reset (R242).
-/
namespace Sys2Proof.Machine

/-! ## Answers to page requests (R258, R259, R370) -/

/-- PRQRESP: an entry the partition holds on the die is answered and freed; the requests that wait for it fail or are tried
again, and so are those that wait for an entry or their turn (R259, R370). -/
def execPrqresp (v : W64) (s : State) : Host.Outcome State Fault Refusal :=
  let part := s.frame.cur.part
  let die := s.frame.cur.die
  let key := 512 * die + (v.extractLsb' 0 9).toNat
  let s0 := s.setTx part die { s.txAt part die with prqresp := v &&& 0x3FF }
  if reservedPage part then .next s
  else
  match SMap.find s.prq key with
  | none => .next s0
  | some q =>
    if q.part ≠ part then .next s0
    else
      let mine := s.waits.filter fun w => w.cur.part == part
      let its := fun (w : PortWait) => w.cur.die == die && w.page == some q.page && w.write == q.write
      let again := fun (w : PortWait) => its w || (w.page.isNone && !w.gives)
      let s1 := { s0 with prq := s0.prq.del key, waits := s0.waits.filter fun w => !(w.cur.part == part && again w) }
      if v.getLsbD 9 then
        let s2 := (mine.filter its).foldl State.failWait s1
        .next ((mine.filter fun w => !its w && again w).foldl (fun (s : State) w => s.soon w.cur w.i) s2)
      else .next ((mine.filter fun w => again w && w.again).foldl (fun (s : State) w => s.soon w.cur w.i) s1)

/-! ## The mailbox and host accesses (R361, R362) -/

/-- A write of KICK performed: the sequence number, and the mailbox interrupt at the lowest hart (R362). -/
def State.kicked (s : State) (part : Nat) (v : W64) : State :=
  let p := s.part part
  (s.setPart part { p with kick := v.setWidth 32 }).raiseIrq (.hart p.lowHart 9 0)

/-- MBXSTAT: the report, and VF vector 2 (R362, R363). -/
def execMbxstat (v : W64) (s : State) : Host.Outcome State Fault Refusal :=
  let part := s.frame.cur.part
  .next ((s.setPart part { s.part part with mbxstat := v &&& 0xFFFFFFFFF }).raiseIrq (.vf part 2))

/-- Bytes written through a partition's RANGES taken in order. -/
def State.rangeWrite (s : State) (part : Nat) (off : Nat) (bs : List Byte) : State :=
  match bs with
  | [] => s
  | b :: rest =>
    let s1 := match rangeAt (s.part part).pr.ranges off with
      | some pa => s.physWrite part pa [b]
      | none => s
    State.rangeWrite s1 part (off + 1) rest

/-- A byte of a virtual function's BAR0 (R362); with MBXBASE zero the mailbox window reads an open value. -/
def State.bar0Byte (s : State) (p : Partition) (off : Nat) : Byte :=
  let reg := fun (n base : Nat) => BitVec.ofNat 8 (n / 256 ^ (off - base))
  if off < 0x1000 then (if p.mbxbase = 0 then Config.openByte s.ctr off else s.mem.read (p.mbxbase.toNat + off))
  else if off < 0x1008 then reg p.kick.toNat 0x1000
  else if off < 0x1010 then reg p.mbxstat.toNat 0x1008
  else if 0x2000 ≤ off ∧ off < 0x2200 then SMap.get 0 p.msix (off - 0x2000)
  else if 0x3000 ≤ off ∧ off < 0x3008 then reg p.pba.toNat 0x3000
  else 0
/-- A completion to the host. -/
def State.replyHost (s : State) (r : HostReply) : State := { s with pkg := { s.pkg with reply := some r } }
/-- Bytes written to the MSI-X table of a partition's function (R362). -/
def Partition.putMsix (p : Partition) (off : Nat) (bs : List Byte) : Partition :=
  { p with msix := bs.zipIdx.foldl (fun m b => if off + b.2 < 0x200 then m.put (off + b.2) b.1 else m) p.msix }
/-- A host write to a function's BAR0: the mailbox window, KICK, the MSI-X table; the rest is read-only or reserved (R362). -/
def State.bar0Write (s : State) (part off : Nat) (bs : List Byte) : State :=
  let p := s.part part
  if off < 0x1000 then
    if p.mbxbase = 0 then s else s.physWrite part (p.mbxbase.toNat + off) (bs.take (0x1000 - off))
  else if off = 0x1000 then
    s.kicked part (BitVec.ofNat 64 (leNat bs))
  else if 0x2000 ≤ off ∧ off < 0x2200 then s.setPart part (p.putMsix (off - 0x2000) bs)
  else s

/-- The bytes of a write within each naturally aligned 8-byte word, by offset (R263). -/
def hostWords (off : Nat) (bs : List Byte) : List (Nat × List Byte) :=
  (List.range ((off % 8 + bs.length + 7) / 8)).map fun i =>
    let o := if i = 0 then 0 else 8 * i - off % 8
    (off + o, (bs.drop o).take (if i = 0 then 8 - off % 8 else 8))
/-- One word of a posted write to a function's memory window performed. -/
def State.hostWord (s : State) (part : Nat) (bar0 : Bool) (w : Nat × List Byte) : State :=
  if bar0 then s.bar0Write part w.1 w.2 else s.rangeWrite part w.1 w.2
/-- The waiting part of a posted write, or a request that waits: with a number of its own, which its words share. -/
def State.hostWait (s : State) (a : HostAccess) : State :=
  let id := if s.frame.cur.idx = 0 then s.ctr + 1 else s.frame.cur.idx
  { s with ctr := s.ctr + 1, pkg := { s.pkg with hostq := s.pkg.hostq ++ [({ s.frame.cur with idx := id }, a)] } }
/-- A request of the same function, received before, waits (R274). -/
def State.hostBehind (s : State) (a : HostAccess) : Bool :=
  s.pkg.hostq.any fun w => w.2.vf == a.vf && (s.frame.cur.idx == 0 || w.1.idx != s.frame.cur.idx)
/-- One waits behind them: a posted write with Relaxed Ordering where a free choice says so (R274). -/
def State.hostOrdered (s : State) (a : HostAccess) : Bool :=
  s.hostBehind a && !(a.write && a.relaxed && Config.copyTake (2 ^ 40 * s.ctr + 2 ^ 36))
/-- A posted write to a memory window: one word at once; of several, those a free choice takes perform, and the others follow in later
PCC cycles (R263; assumption 12). -/
def State.hostWrite (s : State) (part : Nat) (a : HostAccess) : State :=
  let ws := hostWords a.off a.data
  if ws.length ≤ 1 ∧ s.frame.cur.idx = 0 then s.hostWord part a.bar0 (a.off, a.data)
  else
    let id := if s.frame.cur.idx = 0 then s.ctr + 1 else s.frame.cur.idx
    let now := fun (i : Nat) => Config.copyTake (2 ^ 40 * s.ctr + 2 ^ 37 + i)
    let rest := (ws.zipIdx.filter fun w => !now w.2).map fun w =>
      (({ s.frame.cur with idx := id } : Cursor), { a with off := w.1.1, len := w.1.2.length, data := w.1.2 })
    let t := (ws.zipIdx.filter fun w => now w.2).foldl (fun (t : State) w => t.hostWord part a.bar0 w.1) s
    { t with ctr := s.ctr + 1, pkg := { t.pkg with hostq := t.pkg.hostq ++ rest } }

/-- HOST_FUNCTION_ACCESS: a read or posted write through a virtual function reaches the partition whose record names it: BAR2, of 64 GiB,
its RANGES in order, BAR0 the mailbox window, its registers and MSI-X structures. Past RANGES, and without a partition, it is an
Unsupported Request; with a PASID prefix it is malformed (R361, R362). Requests of one function keep their order, but for posted
writes with Relaxed Ordering, and at background priority give way to others (R274, R345). -/
def execHostFunctionAccess (a : HostAccess) (s : State) : Host.Outcome State Fault Refusal :=
  let n := if a.write then a.data.length else a.len
  if a.pasid then .next (s.replyHost .malformed)
  else
    match s.vfPart a.vf with
    | none => .next (s.replyHost .unsupported)
    | some part =>
      let p := s.part part
      let waits := ((p.pr.hostAt p.mbxbase a).map fun pa => s.givesWayAt part pa n).getD false
      if s.hostOrdered a || waits then .next (s.hostWait a)
      else if a.bar0 then
        if a.write then
          .next (if a.off < 0x1000 then s.hostWrite part { a with data := a.data.take (0x1000 - a.off) } else s.bar0Write part a.off a.data)
        else .next ({ s with ctr := s.ctr + 1 }.replyHost (.data ((List.range a.len).map fun i => s.bar0Byte p (a.off + i))))
      else if p.pr.total < a.off + n ∨ 2 ^ 36 < a.off + n then .next (s.replyHost .unsupported)
      else if a.write then .next (s.hostWrite part a)
      else
        let byte := fun (i : Nat) => ((rangeAt p.pr.ranges (a.off + i)).map s.mem.read).getD 0
        .next (s.replyHost (.data ((List.range a.len).map byte)))

/-- The posted write that a KICK of a partition's function is. -/
def kickAccess (p : Partition) (v : W64) : HostAccess :=
  { vf := p.pr.vf.toNat, bar0 := true, write := true, off := 0x1000, len := 8, data := leBytes 8 v.toNat }
/-- KICK: the posted write of the partition's function to KICK, behind what of the function has been received before and has not
performed (R274, R283, R362). -/
def execKick (v : W64) (s : State) : Host.Outcome State Fault Refusal :=
  let part := s.frame.cur.part
  let a := kickAccess (s.part part) v
  if s.hostBehind a then .next (s.hostWait a) else .next (s.kicked part v)

/-! ## Deceg boundaries (R355, R367, R368) -/

/-- Whether a launch has cores on both dies of a boundary. -/
def Launch.spans (l : Launch) (b : BitVec 2) : Bool :=
  l.cores.any (fun c => dieOf c == (boundaryDies b).1) && l.cores.any fun c => dieOf c == (boundaryDies b).2

/-- LINKSTAT's state of a boundary changed, with a host event (R368, R374). -/
def State.setLink (s : State) (b : BitVec 2) (v : Nat) : State :=
  { s with pkg := { s.pkg with link := s.pkg.link.put b.toNat v } }.hostEvent 3 [b.toNat, v]

/-- The groups retired: every member has halted (R294, R355). -/
def State.retired (s : State) (l : Launch) : Nat :=
  ((List.range 255).map fun g =>
    let m := l.members g
    if !m.isEmpty && m.all fun x => (s.member l x).status == .halted then 2 ^ g else 0).sum

/-- A context stopped by a boundary's loss: its released entries that do not cross it are left to complete (R355). -/
def Ctx.cutLink (x : Ctx) (keep : XferEntry → Bool) : Ctx :=
  if x.status = .halted ∨ x.status = .stopped ∨ x.status = .absent then x
  else
    { x with cur := { x.cur with amPend := [], trapCode := 0, trapCount := 0, arith := 0 }, status := .stopped, cond := none,
             flip := none, entry := none, timer := none, timerReq := false, xfers := x.xfers.filter keep, answers := [],
             ntWait := [], mzWait := [], split := none }

/-- The entries of a context that cross a boundary leave bytes that are not specified at their destinations (R355). -/
def State.loseEntries (s : State) (l : Launch) (b : BitVec 2) (core c : Nat) : State :=
  (((s.coreAt core).ctx c).xfers.filter fun e => e.rel.isSome && crosses b (dieOf core) (dieOf (l.cores.getD e.dcore 0))).foldl
    (fun (s : State) e =>
      let dst := l.cores.getD e.dcore 0
      s.draw.2.setCoreAt dst ((s.coreAt dst).deliverBytes e.dst (openBytes s.ctr e.len))) s
/-- The words of a stream that cross a boundary and have not been delivered take values that are not specified (R355). -/
def State.loseWords (s : State) (core : Nat) (b : BitVec 2) (st : Stream) : Stream × State :=
  let far := ((List.range ((st.len + 7) / 8 - st.pos / 8)).map (st.pos / 8 + ·)).filter fun n =>
    s.farAt core b (st.va + BitVec.ofNat 64 (8 * n))
  ({ st with words := far.foldl (fun (m : SMap W64) n => m.put n (BitVec.ofNat 64 (leNat (openBytes (s.ctr + n) 8)))) st.words },
    { s with ctr := s.ctr + (st.len + 7) / 8 })
/-- A CATOM that crosses a boundary leaves a value that is not specified (R355). -/
def State.loseCatom (s : State) (core : Nat) (b : BitVec 2) (c : CatomCmd) : CatomCmd × State :=
  if s.farAt core b c.va then ({ c with add := BitVec.ofNat 64 (leNat (openBytes s.ctr 8)) }, s.draw.2) else (c, s)
/-- A command of the buffer: one that has not begun loses its elements as it begins. -/
def State.loseCpy (s : State) (core : Nat) (b : BitVec 2) (c : CopyCmd) : CopyCmd × State :=
  if c.begun then s.loseEls core b c else ({ c with cut := some b }, s)
/-- A list of commands, each of which loses what crosses. -/
def loseAll {α : Type} (f : State → α → α × State) (l : List α) (s : State) : List α × State :=
  l.foldl (fun a x => let r := f a.2 x; (a.1 ++ [r.1], r.2)) ([], s)
/-- What of a core's block transfers, streams and CATOMs crosses a boundary is not specified (R355). -/
def State.loseCopies (s : State) (b : BitVec 2) (core : Nat) : State :=
  let e := (s.coreAt core).ce
  let r := loseAll (fun s => s.loseCpy core b) e.buf s
  let r0 := loseAll (fun s => s.loseWords core b) e.ch0 r.2
  let r1 := loseAll (fun s => s.loseWords core b) e.ch1 r0.2
  let a := loseAll (fun s => s.loseCatom core b) e.catoms r1.2
  a.2.setCoreAt core { a.2.coreAt core with ce := { e with buf := r.1, ch0 := r0.1, ch1 := r1.1, catoms := a.1 } }

/-- A core of a launch that a boundary's loss ends: every context stopped in this cycle, without a dump (R355). -/
def State.cutCore (s : State) (l : Launch) (b : BitVec 2) (core : Nat) : State :=
  let s1 := ((List.range 4).foldl (fun (s : State) c => s.loseEntries l b core c) s).loseCopies b core
  let keep := fun (e : XferEntry) => e.rel.isSome && !crosses b (dieOf core) (dieOf (l.cores.getD e.dcore 0))
  let k := (List.range 4).foldl (fun (k : Core) c => k.setCtx c ((k.ctx c).cutLink keep)) (s1.coreAt core)
  let k1 := { k with issuing := if k.issuing = some handlerCtx then k.issuing else none }
  (s1.setCoreAt core k1).endLease core true false

/-- The link-loss record of a launch, and its interrupts (R342, R355). -/
def State.linkRecord (s : State) (l : Launch) (b : BitVec 2) (retired : Nat) : State :=
  let p := s.part l.part
  let bytes := leBytes 4 l.tag.toNat ++ leBytes 1 b.toNat ++ leBytes 3 0 ++ leBytes 8 s.pcc ++ leBytes 16 0 ++ leBytes 32 retired
  let irqs : List Irq := [.hart l.hart 3 0, .vf l.part 1]
  match s.physPieces l.part (s.homeDie l.part) (p.llbase + BitVec.ofNat 64 (64 * (p.llidx.toNat % 16))) bytes with
  | .ok ps => if p.llbase = 0 then irqs.foldl State.raiseIrq s
              else (s.setPart l.part { p with llidx := p.llidx + 1 }).putRecord l.part (s.homeDie l.part) ps irqs
  | .error _ => irqs.foldl State.raiseIrq s

/-- LINK_FAILURE: the boundary is failed, but for a loss of lane lock of 300 PCC cycles or less, the cursor's index counting the
cycles for which it has been lost and 0 where replays are the cause; every placed launch with cores on
both its dies ends: its contexts stop, its record is written, and it completes with status 7 (R355, R368). One that has failed
already changes no more. -/
def execLinkFailure (b : BitVec 2) (s : State) : Host.Outcome State Fault Refusal :=
  let lost := s.frame.cur.idx
  let gone := s.launches.filter fun l => l.status == .placed && l.spans b
  if SMap.get 0 s.pkg.link b.toNat = 1 ∨ b = 3 ∨ (1 ≤ lost ∧ lost ≤ 300) then .next s
  else .next (gone.foldl (fun (s : State) l =>
    let r := s.retired l
    let s1 := { s with launches := modLaunch s.launches l.part l.tag fun x => { x with sawLink := true } }
    (l.cores.foldl (fun (s : State) c => s.cutCore l b c) s1).linkRecord l b r) (s.setLink b 1))

/-- FLIT_REPLAY: a replay, the cursor's index counting the flit's replays without acknowledgement; it changes no ordering
(R367), and the eighth declares the boundary failed (R368). -/
def execFlitReplay (b : BitVec 2) (s : State) : Host.Outcome State Fault Refusal :=
  if 8 ≤ s.frame.cur.idx ∧ SMap.get 0 s.pkg.link b.toNat = 0 then .next (s.soon { s.frame.cur with idx := 0 } (.linkFailure b)) else .next s

/-- A boundary's training begun: it ends within 50 ms (R368). -/
def State.train (s : State) (b : BitVec 2) : State :=
  let d := s.draw
  (d.2.setLink b 2).later (s.pcc + 1 + Config.trainingLatency d.1 % 150000000) s.frame.cur (.linkTrainingEnd b (Config.trainingUp d.1))
/-- LINKCTL_RETRAIN: a failed boundary whose bit is written with 1 trains (R368). -/
def execLinkctlRetrain (v : W64) (s : State) : Host.Outcome State Fault Refusal :=
  .next ((List.range 3).foldl (fun (s : State) b =>
    if v.getLsbD b && SMap.get 0 s.pkg.link b == 1 then s.train (BitVec.ofNat 2 b) else s) s)

/-- LINK_TRAINING_END: the boundary reads up or failed (R368). -/
def execLinkTrainingEnd (b : BitVec 2) (up : Bool) (s : State) : Host.Outcome State Fault Refusal :=
  if SMap.get 0 s.pkg.link b.toNat = 2 then .next (s.setLink b (if up then 0 else 1)) else .next s

/-! ## Boot and attestation (R372, R373) -/

/-- POWER_GOOD: boot begins at stage 1 (R372). -/
def execPowerGood (s : State) : Host.Outcome State Fault Refusal :=
  .next ({ s with pkg := { s.pkg with stage := 1, bootErr := 0, noCores := false, measures := [] } }.raiseIrq (.pf0 1))

/-- The page placed in hypervisor memory at stage 4: the whole certificate chain and the measurements, in as many bytes as they take,
at least 4,096 (R373; where it lies, its size and its layout are not stated, assumption 58). -/
def bootPage (measures : List W256) : List Byte :=
  let l := Config.certChain ++ measures.flatMap fun m => leBytes 32 m.toNat
  pad (max 4096 l.length) l
/-- A stage's measurement recorded; at stage 4 the page is placed (R373). -/
def State.measure (s : State) : State :=
  let g := s.pkg
  let m := g.measures ++ [Config.stageDigest (8 * s.ctr + g.stage)]
  { s with pkg := { g with measures := m }, ctr := s.ctr + 1,
           mem := if g.stage = 4 then s.mem.writeBytes Config.bootPageAt (bootPage m) else s.mem }

/-- BOOT_STAGE_COMPLETE: the stage's measurement is recorded and the next begins; a failure sets the stage's error: at stages
1 and 4 boot stays there, after 2, which leaves the compute cores unavailable, and 3 it goes on (R372, R373). -/
def execBootStageComplete (ok : Bool) (s0 : State) : Host.Outcome State Fault Refusal :=
  let g := s0.pkg
  if g.stage = 0 ∨ 5 ≤ g.stage ∨ g.bootErr = 1 ∨ g.bootErr = 4 then .next s0
  else
    let s := s0.measure
    if ok then .next ({ s with pkg := { s.pkg with stage := g.stage + 1 } }.raiseIrq (.pf0 1))
    else
      let s1 := { s with pkg := { s.pkg with bootErr := if g.bootErr = 0 ∨ g.stage = 4 then g.stage else g.bootErr,
                                             noCores := g.noCores || g.stage == 2,
                                             stage := if g.stage = 2 ∨ g.stage = 3 then g.stage + 1 else g.stage } }
      let s2 := if g.stage = 2 then s1.hostEvent 2 [] else if g.stage = 3 then s1.hostEvent 3 [] else s1
      .next (s2.raiseIrq (.pf0 1))

/-- CATID: family 0x0003, version 0x0001 (R352). -/
def catid : Nat := 0x00030001

/-- ATTESTATION_REQUEST: the nonce, the measurements, FEAT0 to FEAT3, CATID and the GEN of every map record, signed by the
device identity key (R373). -/
def execAttestationRequest (nonce : W256) (s : State) : Host.Outcome State Fault Refusal :=
  let text := leBytes 32 nonce.toNat ++ (s.pkg.measures.flatMap fun m => leBytes 32 m.toNat) ++ leBytes 8 feat0.toNat ++ leBytes 24 0 ++
    leBytes 8 catid ++ (List.range 576).flatMap fun c => leBytes 4 (s.coreAt c).rows.gen.toNat
  .next { s with pkg := { s.pkg with evidence := text ++ leBytes 3309 (Config.identitySign (Config.shake256 text)).toNat } }

/-! ## The package and the module (R375, R377) -/

/-- The limit of the form's power cap in mW (R375). -/
def formLimit (g : Package) : Nat := if g.gnM then 2800000 else 2550000

/-- PKGCAP: clamped to the form's limit; the assigned caps are cut to it (R348, R375; assumption 72). -/
def execPkgcap (v : W64) (s : State) : Host.Outcome State Fault Refusal :=
  .next ({ s with pkg := { s.pkg with pkgcap := min (formLimit s.pkg) (v.setWidth 32 : W32).toNat } } : State).recap

/-- PCC cycles for which the module's input must have stayed at or below its limit: 10 ms (R377). -/
abbrev tripClear : Nat := 30000000
/-- MODULE_INPUT_TRIP: on a GN-TY3-M, 7 cycles in 8 are skipped on every core, with a type-5 event with second byte 0; a further excess
restarts the skipping and the 10 ms (R377). -/
def execModuleInputTrip (s : State) : Host.Outcome State Fault Refusal :=
  if s.pkg.gnM then .next ({ s with pkg := { s.pkg with trip := true, tripAt := s.pcc } }.hostEvent 5 [0]) else .next s

/-- MODULE_TRIP_CLEAR: where 10 ms have passed since the last excess, the cores return to the governor; a type-5 event with second byte
1 (R377). -/
def execModuleTripClear (s : State) : Host.Outcome State Fault Refusal :=
  if s.pkg.trip && decide (s.pkg.tripAt + tripClear ≤ s.pcc) then
    .next ({ s with pkg := { s.pkg with trip := false } }.hostEvent 5 [1])
  else .next s

/-! ## Cold reset (R35, R242) -/

/-- COLD_RESET: the machine after reset; the survival maps, in flash, with their signature, and the form stay (R237, R242). -/
def execColdReset (s : State) : Host.Outcome State Fault Refusal :=
  let keep := fun (_ : Nat) (k : Core) =>
    ({ rows := { depth := k.rows.depth, ldepth := k.rows.ldepth, gen := k.rows.gen } } : Core)
  let g : Package := { gnM := s.pkg.gnM, pkgcap := formLimit s.pkg, mapSig := s.pkg.mapSig }
  .next { State.reset with cores := s.cores.mapVal keep, pkg := g, ctr := s.ctr }

end Sys2Proof.Machine
end

