-- ==== Sys2Proof/Machine/Clock.lean ====
section
/-!
DEFINITION. Time: the tick of the PCC, the core cycles it brings at each core's clock (R5, R25, R236), the cycles that
skipping removes (R56, R348, R349, R377), and the steps that come due in each, in the order of R40, R41 and R158
(assumption 2).
-/
namespace Sys2Proof.Machine

/-! ## Planning -/

/-- A core's cursor. -/
def State.place (s : State) (core ctx : Nat) : Cursor :=
  { part := s.partOfCore core, die := dieOf core, core := core, ctx := ctx }
/-- Steps put at the end of the present instant. -/
def State.plan (s : State) (l : List Todo) : State := { s with todo := s.todo ++ l }
/-- Steps put before everything else. -/
def State.planFirst (s : State) (l : List Todo) : State := { s with todo := l ++ s.todo }
/-- An instruction planned where a condition holds. -/
def due (b : Bool) (cur : Cursor) (i : Instr) : List Todo := if b then [.exec cur i] else []

/-! ## A core cycle -/

/-- Cycles of each eight that are removed on a core (R348, R349, R377). -/
def State.skipCount (s : State) (core : Nat) : Nat :=
  let p := (s.coreAt core).pwr
  let own := if p.gov = .skip then p.skip else 0
  if s.pkg.trip || SMap.get false s.pkg.veryHot (dieOf core) then 7 else own
/-- Whether the cycle at a core's phase is removed; which of the eight are is not stated. -/
def State.removed (s : State) (core : Nat) : Bool :=
  decide (((s.coreAt core).pwr.phase + Config.skipPosition core) % 8 < s.skipCount core)

/-- One cycle of a core's engines: whether each runs a micro-operation. -/
def Core.tickEngines (k : Core) : Core × Bool × Bool :=
  let a := k.me0.tick k.fillWaits
  let b := k.me1.tick k.fillWaits
  ({ k with me0 := a.1, me1 := b.1 }, a.2, b.2)

/-- The engines' micro-operations of a cycle. -/
def microDue (cur : Cursor) (m0 m1 : Bool) : List Todo :=
  (if m0 then [.micro { cur with eng := false }] else []) ++ if m1 then [.micro { cur with eng := true }] else []

/-- The instruction that lands an answer of a kind (R166). -/
def answerStep (kind : Nat) : Instr :=
  match kind with
  | 0 => .probeAnswer
  | 1 => .evacAnswer
  | _ => .leaseAnswer false 0
/-- The answers of a context that land in the present cycle, in the order of their slots (R43, R166). -/
def State.answersDue (s : State) (core c : Nat) (x : Ctx) : List Todo :=
  let now := x.answers.filter fun w => decide (w.due ≤ if w.kind = 2 then s.pcc else (s.coreAt core).cyc)
  (sortBy (fun (a b : AnswerWait) => decide (a.slot ≤ b.slot)) now).map fun w => .exec (s.place core c) (answerStep w.kind)

/-- What lands before a core's bundle: held patches of idle engines (R209), the dispensers' answers, those to PROBE, EVAC, LEASE and
CATOM, a firmware evacuation's end (R40, R166, R247). -/
def State.landings (s : State) (core : Nat) : List Todo :=
  let k := s.coreAt core
  let ntq := ((s.launchAt core).map fun l => !l.ntq.isEmpty).getD false
  due ntq (s.place core 0) .dispenserAnswer ++ (k.ctxs.flatMap fun x => s.answersDue core x.1 x.2) ++
    due (k.ce.catoms.any fun m => decide (m.due ≤ s.pcc) && decide (m.ready ≤ k.cyc)) (s.place core 0) .catomAnswer ++
    due (match k.rows.fwEvac with | some (_, t) => decide (t ≤ k.cyc) | none => false) (s.place core 0) .firmwareEvacuation
/-- The patches held for an engine that is not Busy (R209). -/
def State.patches (s : State) (core : Nat) : List Todo :=
  let k := s.coreAt core
  due (!k.me0.mpsw.isEmpty && !k.me0.busy) (s.place core 0) .mpswDeferredWrite ++
    due (!k.me1.mpsw.isEmpty && !k.me1.busy) { s.place core 0 with eng := true } .mpswDeferredWrite

/-- The prefetch engines' steps of a cycle (R82, R84); when a metadata word arrives is a free choice. -/
def State.prefetches (s : State) (core : Nat) : List Todo :=
  (s.coreAt core).ctxs.flatMap fun x =>
    due (match x.2.fetch.reqs with | q :: _ => decide (q.due ≤ s.pcc) | [] => false) (s.place core x.1) .segmentExpansion ++
      due (x.2.cur.mpc != 0 && decide (x.2.fetch.mdbuf.length < 256) && Config.metadataLatency (s.ctr + x.1) % 2 == 0)
        (s.place core x.1) .metadataPrefetch

/-- The copy engine's steps of a cycle: a command that begins and the accesses of rank 1, before the cycle's stores; its deliveries,
after them (R158, R173). -/
def State.copies (s : State) (core : Nat) : List Todo :=
  due ((s.coreAt core).nextCpy s.pcc).isSome (s.place core 0) .cpyBegin ++ [.transfers core false]
def State.deliveries (s : State) (core : Nat) : List Todo :=
  let k := s.coreAt core
  .transfers core true :: (due (!k.ce.ch0.isEmpty) (s.place core 0) .streamGranule ++
    due (!k.ce.ch1.isEmpty) { s.place core 0 with eng := true } .streamGranule)

/-- The steps of a core cycle of a placed core, after its engines' tick: its landings, the copy engine's reads, the bundle, the
accesses, the deliveries and what ends the cycle. In a removed cycle only the engines and the copy engine run (R349). -/
def State.cycleSteps (s : State) (core : Nat) (gone m0 m1 : Bool) : List Todo :=
  let k := s.coreAt core
  let cur := s.place core 0
  let late := match k.issuing with
    | some c =>
      let x := k.ctx c
      due (!x.cur.pipe.isEmpty && x.flip.isNone && (x.status == .ready || x.status == .inService)) (s.place core c) .resultDelivery
    | none => []
  let first := s.patches core ++ (if gone then [] else late) ++ microDue cur m0 m1
  let bundle : List Todo := if gone then [] else [.exec cur .bundleIssue, .exec cur .scratchAccessPerform]
  first ++ (if gone then [] else s.landings core ++ s.prefetches core) ++ s.copies core ++ bundle ++ s.deliveries core ++ [.settle core]

/-- Whether an accepted routine of a core is within 256 core cycles of a start it knows (R349). -/
def Core.rising (k : Core) : Bool :=
  [k.me0, k.me1].any fun g =>
    match g.run with
    | some r => !r.started && decide (r.startAt.toNat ≤ (k.ctx r.ctx).cur.sclk.toNat + 256)
    | none => false
/-- The ballast that the governor may run in a cycle before a rise (R346, R349). -/
def State.ballast (s : State) (core : Nat) : State :=
  if (s.coreAt core).rising then
    if Config.ballast s.ctr then s.draw.2.charge core 11 1 else s.draw.2
  else s

/-- A core cycle: its number and its PCC, the records of the last one, the scratch as it begins, its engines' tick. -/
def Core.begin_ (k : Core) (gone : Bool) (pcc : Nat) : Core × Bool × Bool :=
  let k0 := k.flush
  ({ k0 with cyc := if gone then k0.cyc else k0.cyc + 1, last := if gone then k0.last else pcc, pwr := { k0.pwr with phase := (k0.pwr.phase + 1) % 8 },
             before := k0.scratch, writes := [] } : Core).tickEngines

/-- A context that keeps its core since it flipped at a barrier: its test comes before another cycle of the core (R129). -/
def Core.atBarrier (k : Core) : Option (Nat × Byte) :=
  match k.issuing with
  | some c =>
    match (k.ctx c).status, (k.ctx c).cond with
    | .blocked, some (.bar g) => some (c, g)
    | _, _ => none
  | none => none

/-- The barriers of a core's blocked contexts that release, where a core cycle of it has ended in this PCC cycle: their test at that
cycle's end comes before another one (R129). -/
def State.barsReady (s : State) (core : Nat) : List Todo :=
  match s.launchAt core with
  | none => []
  | some l =>
    if (s.coreAt core).last ≠ s.pcc ∨ l.status ≠ .placed then []
    else
      ((List.range 4).filterMap fun c =>
        match ((s.coreAt core).ctx c).cond with
        | some (.bar g) =>
          if !(SMap.get ({} : Episode) l.episodes g.toNat).arrived.isEmpty && s.mayRelease l g.toNat then
            some (.exec { part := l.part } (.barrierRelease l.tag g)) else none
        | _ => none).eraseDups

/-- One core cycle of a core begins: its steps are planned before everything else. -/
def State.cycle (s : State) (core : Nat) : State :=
  match (s.coreAt core).atBarrier, s.barsReady core with
  | some (c, g), _ => s.planFirst (s.barTest core c g ++ [.cycle core])
  | none, t :: ts => s.planFirst (t :: ts ++ [.cycle core])
  | none, [] =>
    let gone := s.removed core
    let e := (s.coreAt core).begin_ gone s.pcc
    let s1 := (s.setCoreAt core e.1).charge core 10 1
    if e.1.launch.isNone then s1
    else
      let s2 := s1.draw.2.ballast core
      s2.planFirst (s1.cycleSteps core gone e.2.1 e.2.2)

/-- Whether an engine's accepted routine starts in the present cycle: a bundle of its context at or after its start offset
has issued or is issuing, the context waits at a FLIP.W, or it has stopped (R201). A removed cycle is no first cycle of a wait: DESIGN
CHOICE, unsafe (assumption 40). -/
def Core.starts (k : Core) (e : Bool) : Bool :=
  match (k.eng e).run with
  | none => false
  | some r =>
    let x := k.ctx r.ctx
    let waits := match x.flip with
      | some f => f.wait && decide (f.last < k.cyc)
      | none => false
    !r.started && (decide (r.startAt.toNat < x.cur.sclk.toNat) || (x.split.isSome && r.startAt == x.cur.sclk) || waits ||
      x.status == .stopped)

/-- An engine's writes that land at the end of the present cycle: its MZEROs, then its routine's tiles (R43, R199, R208). -/
def State.engineLandings (s : State) (core : Nat) (e : Bool) : List Todo :=
  let k := s.coreAt core
  (k.ctxs.flatMap fun x =>
    due (x.2.mzWait.any fun z => z.eng == e && decide (z.due ≤ k.cyc)) { s.place core x.1 with eng := e } .mzeroLand) ++
    (match (k.eng e).run with
     | some r => if r.done then [.micro { s.place core 0 with eng := e }] else []
     | none => [])
/-- The flips and the tests of blocked contexts that end a cycle (R41, R49, R129); one given back by the handler is not tested in
that cycle (R58). -/
def State.flips (s : State) (core : Nat) : List Todo :=
  let k := s.coreAt core
  (k.ctxs.flatMap fun x =>
    match x.2.flip with
    | some f => due true (s.place core x.1) (if f.wait then .flipWComplete else .flip)
    | none => []) ++
    k.ctxs.flatMap fun x =>
      match x.2.cond with
      | some (.bar _) => []
      | some _ => due (x.2.status == .blocked && decide (x.2.first ≤ k.cyc + 1)) (s.place core x.1) .blockRelease
      | none => []

/-- An engine's cycle without a micro-operation charged, unless its routine starts in it (R208, R334). -/
def Core.restEngines (k : Core) : Core :=
  [false, true].foldl (fun (k : Core) e => if k.starts e then k else k.setEng e (k.eng e).rest) k

/-- What ends a core cycle: the watchpoints' comparison, the engines' landings in their ranks, chunk bits, routines that start, flips,
blocked contexts' tests, and the capture of the cycle's stops (R41, R43, R49, R129, R165, R174, R201, R325). -/
def State.settle (s : State) (core : Nat) : State :=
  let k := (s.coreAt core).watchAll s.pcc
  let s1 := s.setCoreAt core k.restEngines
  s1.planFirst (s1.engineLandings core false ++ s1.engineLandings core true ++ due k.chunksDue (s1.place core 0) .chunkBitSet ++
    due (k.starts false) (s1.place core 0) .engineStart ++ due (k.starts true) { s1.place core 0 with eng := true } .engineStart ++
    s1.flips core ++ [.capture core])

/-- The accesses of the copy engine and of XFER entries in a core cycle: those of rank 1 and of main memory, or the deliveries
(R158, R263). -/
def State.transfers (s : State) (core : Nat) (late : Bool) : State :=
  let s1 := s.moveTiles core late
  if late then s1.writeXfers core else ((s1.readStream core false).readStream core true).readXfers core

/-! ## The end of a tick -/

/-- A launch's steps at the end of a tick: barriers, completion, pre-emption. -/
def State.closeLaunch (s : State) (l : Launch) : List Todo :=
  let cur : Cursor := { part := l.part }
  if l.status ≠ .placed then []
  else
    (l.episodes.flatMap fun e => due true cur (.barrierRelease l.tag (BitVec.ofNat 8 e.1))) ++
      due (l.cores.all fun c => (s.coreAt c).finished) cur (.launchCompletion l.tag) ++
      due l.preempt cur (.preEmption l.tag)

/-- A partition's steps at the end of a tick: placement and the completion ring. -/
def State.closePart (s : State) (part : Nat) (p : Partition) : List Todo :=
  let cur : Cursor := { part := part }
  due (s.launches.any fun l => l.part == part && (l.status != .placed || (l.preempt && l.area.isNone))) cur .launchPlacement ++
    due (!p.cplHeld.isEmpty) cur .completionRingWrite

/-- The end of a PCC tick. -/
def State.close (s : State) : State :=
  let t := s.quiesceEnd
  t.plan ((t.launches.flatMap t.closeLaunch) ++ t.parts.flatMap fun p => t.closePart p.1 p.2)

/-! ## The tick -/

/-- The PCC steps of a core: the end of a settling window, a lease's end, timers (R133, R241, R350). -/
def State.corePcc (s : State) (core : Nat) (k : Core) : List Todo :=
  due (match k.pwr.window with | some w => decide (w.2 ≤ s.pcc) | none => false) (s.place core 0) .opStepWindowEnd ++
    due (match k.lease with | some l => l.left == 0 | none => false) (s.place core 0) .leaseExpiry ++
    if k.launch.isNone then [] else k.ctxs.flatMap fun x => due (match x.2.timer with | some d => decide (d ≤ s.pcc) | none => false) (s.place core x.1) .timerExpiry

/-- A core's clock advanced by a tick, and the core cycles it brings: at 3.0 GHz one, at another clock in its proportion
(R236). -/
def Core.advance (k : Core) : Core :=
  { k with pwr := { k.pwr with clk := (k.pwr.clk + k.clock) % 30 },
           lease := k.lease.map fun l => { l with left := l.left - 1 } }
def Core.cycles (k : Core) : Nat := (k.pwr.clk + k.clock) / 30

/-- The static energy of the cores that have held nothing since reset: one core cycle each at OP6 (R346, R347). -/
def State.idleEnergy (s : State) : State :=
  let n := (576 - s.cores.length) * (SMap.get (0 : BitVec 16) s.pkg.weights (16 * 6 + 10)).toNat
  { s with pkg := { s.pkg with ovhenergy := s.pkg.ovhenergy + n } }

/-- The cycles of partitions at background priority counted on every die (R352). -/
def State.countBg (s : State) : State :=
  s.parts.foldl (fun (s : State) p => if p.2.bg then (List.range 3).foldl (fun s d => s.count p.1 d 5 1) s else s) s

/-- A launch has released entries that begin (R180). -/
def State.xfersDue (s : State) (l : Launch) (pcc : Nat) : Bool :=
  l.cores.any fun c => (s.coreAt c).ctxs.any fun x => x.2.xfers.any fun e =>
    e.left.isEmpty && match e.rel with
      | some r => decide (r + e.ofs ≤ pcc)
      | none => false

/-- The PCC advances: the records that wait, an occupancy window's end, the port requests that gave way, what has come in from outside, what comes due at this
PCC, then the core cycles, then the end of the tick. -/
def State.tick (s : State) : State :=
  let now := s.pcc + 1
  let inb := s.inbox.filter fun x => decide (x.1 ≤ now)
  let cycles := s.cores.flatMap fun k => List.replicate k.2.cycles (.cycle k.1)
  let s1 : State := { s with pcc := now, frame := {}, inbox := s.inbox.filter fun x => !decide (x.1 ≤ now),
                             waits := s.waits.filter (fun w => !w.gives), pkg := { s.pkg with hostq := [] },
                             parts := s.parts.mapVal fun _ (p : Partition) => p.switchLog,
                             cores := s.cores.mapVal fun _ (k : Core) => k.advance }
  let s2 := s1.idleEnergy.countBg
  let ends := s2.launches.flatMap fun l =>
    match l.step with
    | some e => due (decide (e.2 ≤ now)) { part := l.part } (.commStepEnd l.tag)
    | none => []
  let xfers := s2.launches.flatMap fun l => due (s2.xfersDue l now) { part := l.part } (.xferTransfer l.tag)
  let dumps := (s2.dumps.filter fun d => decide (d.due ≤ now)).map fun d => (.exec { part := d.part } .dumpWrite : Todo)
  s2.offerHeld.plan (due (now % 300000 == 0) {} .occupancyWindowEnd ++ s.portRetries ++ inb.map (·.2) ++ ends ++ dumps ++
    (s2.cores.flatMap fun k => s2.corePcc k.1 k.2) ++ xfers ++ cycles ++ [.close])

/-- An event of the harts' windows: the partition kernel's registers, the hypervisor's. Harts run once stage 4 of boot has started hart
0 (R372). -/
def fromHart (i : Instr) : Bool :=
  match i with
  | .lqpush .. | .lqcancel _ | .gtxw1Read | .vfirq _ | .stoclr _ | .flock _ | .counterSelect .. | .cntchgRead | .dlogSnap => true
  | .partCreate | .partRemove | .partReset | .partUpdateBudgets | .partQuiesce | .partImport => true
  | .sbctlWrite _ | .mbxstat _ | .prqresp _ | .txatpWrite .. | .txinvWrite .. => true
  | .registerWrite r _ =>
    match r with
    | .hevbase | .hevrd | .weight .. => false
    | _ => true
  | _ => false
/-- An event of a function other than PF0's BAR0, or of a port. -/
def fromFunction (i : Instr) : Bool :=
  match i with
  | .kick _ | .hostFunctionAccess _ | .networkWorkRequest _ | .storageDma _ => true
  | _ => false
/-- Whether what an instruction stands for can happen: until boot has reached stage 5 the harts are in reset, and after a failure at
stage 1 only PF0 BAR0 responds (R372; assumption 57). -/
def State.responds (s : State) (i : Instr) : Bool :=
  !(s.pkg.bootErr == 1 && fromFunction i) && !(decide (s.pkg.stage < 5) && fromHart i)

/-- A planned item carried out. -/
def State.carryOut (s : State) (t : Todo) (go : Instr → State → Host.Outcome State Fault Refusal) :
    Host.Outcome State Fault Refusal :=
  match t with
  | .exec cur i => if s.responds i then go i { s with frame := { s.frame with cur := cur } } else .next s
  | .micro cur => State.runReached { s with frame := { s.frame with cur := cur } }
  | .cycle core => .next (s.cycle core)
  | .settle core => .next (s.settle core)
  | .capture core => .next (s.captureNow core)
  | .transfers core late => .next (s.transfers core late)
  | .host cur a => execHostFunctionAccess a { s with frame := { s.frame with cur := cur } }
  | .close => .next s.close

/-- The first slot of a class (R73). -/
def slotOfCls (c : Cls) : Nat :=
  match c with
  | .c0 => 0 | .c1 => 1 | .c2 => 2 | .c4 => 4 | .c6 => 6 | .c7 => 7
/-- The triggers of the handler context alone (R119, R191). -/
def handlerOnly (i : Instr) : Bool :=
  match i with
  | .timerset _ => true | .timersetExt _ => true | .rdsched _ => true | .rdschedExt _ => true
  | .recw _ => true | .recwExt _ => true | .mpsw .. => true | .mpswExt .. => true | .eret _ => true | .eretExt _ => true
  | _ => false

/-- An instruction made the next thing due: in its slot of context 0 of core 0, or of its handler, in a bundle that ends its
phase at a safe point with a waiting flip and carries two long immediates of 0 (assumption 3). -/
def State.withWord (s : State) (i : Option Instr) : State :=
  match i with
  | none => s
  | some i =>
    let h : Header := { rsv := 0, imm := 2, ops := 0, c := false, e := false, s := !handlerOnly i, w := !handlerOnly i, f := true, pm := 0 }
    let slot := match slotParts i with
      | some p => slotOfCls p.1
      | none => 0
    let cur : Cursor := { slot := slot, ctx := if handlerOnly i then handlerCtx else 0 }
    { s with todo := [.exec cur i], frame := { s.frame with hdr := h, li := [0, 0], rest := [0, 0] } }

end Sys2Proof.Machine
end

