-- ==== Sys2Proof/Machine/Dispatch.lean ====
section
/-!
DEFINITION. What each instruction does: one arm for each constructor, one direct call of its meaning.
-/
namespace Sys2Proof.Machine

def exec (i : Instr) (s : State) : Host.Outcome State Fault Refusal :=
  match i with
  | .bundleIssue => Sys2Proof.Machine.execBundleIssue s
  | .flip => Sys2Proof.Machine.execFlip s
  | .flipWComplete => Sys2Proof.Machine.execFlipWComplete s
  | .opChangeRequest j => Sys2Proof.Machine.execOpChangeRequest j s
  | .resultDelivery => Sys2Proof.Machine.execResultDelivery s
  | .amUpdateLand => Sys2Proof.Machine.execAmUpdateLand s
  | .mzeroLand => Sys2Proof.Machine.execMzeroLand s
  | .scratchAccessPerform => Sys2Proof.Machine.execScratchAccessPerform s
  | .dumpWrite => Sys2Proof.Machine.execDumpWrite s
  | .blockRelease => Sys2Proof.Machine.execBlockRelease s
  | .timerExpiry => Sys2Proof.Machine.execTimerExpiry s
  | .barrierRelease tag g => Sys2Proof.Machine.execBarrierRelease tag g s
  | .xferTransfer tag => Sys2Proof.Machine.execXferTransfer tag s
  | .commStepEnd tag => Sys2Proof.Machine.execCommStepEnd tag s
  | .dispenserAnswer => Sys2Proof.Machine.execDispenserAnswer s
  | .cpyBegin => Sys2Proof.Machine.execCpyBegin s
  | .chunkBitSet => Sys2Proof.Machine.execChunkBitSet s
  | .streamGranule => Sys2Proof.Machine.execStreamGranule s
  | .catomAnswer => Sys2Proof.Machine.execCatomAnswer s
  | .probeAnswer => Sys2Proof.Machine.execProbeAnswer s
  | .evacAnswer => Sys2Proof.Machine.execEvacAnswer s
  | .leaseAnswer granted dur => Sys2Proof.Machine.execLeaseAnswer granted dur s
  | .leaseExpiry => Sys2Proof.Machine.execLeaseExpiry s
  | .engineStart => Sys2Proof.Machine.execEngineStart s
  | .mpswDeferredWrite => Sys2Proof.Machine.execMpswDeferredWrite s
  | .segmentExpansion => Sys2Proof.Machine.execSegmentExpansion s
  | .metadataPrefetch => Sys2Proof.Machine.execMetadataPrefetch s
  | .opStepWindowEnd => Sys2Proof.Machine.execOpStepWindowEnd s
  | .governorEvaluation power => Sys2Proof.Machine.execGovernorEvaluation power s
  | .plannerAssignment ceiling cap pb credit => Sys2Proof.Machine.execPlannerAssignment ceiling cap pb credit s
  | .thermalLimit level => Sys2Proof.Machine.execThermalLimit level s
  | .inFieldTest row fails => Sys2Proof.Machine.execInFieldTest row fails s
  | .firmwareEvacuation => Sys2Proof.Machine.execFirmwareEvacuation s
  | .patrolRead row word => Sys2Proof.Machine.execPatrolRead row word s
  | .lqpush v => Sys2Proof.Machine.execLqpush v s
  | .lqcancel v => Sys2Proof.Machine.execLqcancel v s
  | .launchPlacement => Sys2Proof.Machine.execLaunchPlacement s
  | .preEmption tag => Sys2Proof.Machine.execPreEmption tag s
  | .launchCompletion tag => Sys2Proof.Machine.execLaunchCompletion tag s
  | .completionRingWrite => Sys2Proof.Machine.execCompletionRingWrite s
  | .txatpWrite v byKernel => Sys2Proof.Machine.execTxatpWrite v byKernel s
  | .txinvWrite v byKernel => Sys2Proof.Machine.execTxinvWrite v byKernel s
  | .txInvalidationDone => Sys2Proof.Machine.execTxInvalidationDone s
  | .prqresp v => Sys2Proof.Machine.execPrqresp v s
  | .partCreate => Sys2Proof.Machine.execPartCreate s
  | .partRemove => Sys2Proof.Machine.execPartRemove s
  | .partReset => Sys2Proof.Machine.execPartReset s
  | .resetDone => Sys2Proof.Machine.execResetDone s
  | .partUpdateBudgets => Sys2Proof.Machine.execPartUpdateBudgets s
  | .partQuiesce => Sys2Proof.Machine.execPartQuiesce s
  | .partImport => Sys2Proof.Machine.execPartImport s
  | .gtxw1Read => Sys2Proof.Machine.execGtxw1Read s
  | .vfirq v => Sys2Proof.Machine.execVfirq v s
  | .stoclr v => Sys2Proof.Machine.execStoclr v s
  | .dramCommand cmd => Sys2Proof.Machine.execDramCommand cmd s
  | .occupancyWindowEnd => Sys2Proof.Machine.execOccupancyWindowEnd s
  | .flock v => Sys2Proof.Machine.execFlock v s
  | .counterSelect idx v => Sys2Proof.Machine.execCounterSelect idx v s
  | .cntchgRead => Sys2Proof.Machine.execCntchgRead s
  | .dlogSnap => Sys2Proof.Machine.execDlogSnap s
  | .dlogSnapDone => Sys2Proof.Machine.execDlogSnapDone s
  | .flitReplay b => Sys2Proof.Machine.execFlitReplay b s
  | .linkFailure b => Sys2Proof.Machine.execLinkFailure b s
  | .linkctlRetrain v => Sys2Proof.Machine.execLinkctlRetrain v s
  | .linkTrainingEnd b up => Sys2Proof.Machine.execLinkTrainingEnd b up s
  | .kick v => Sys2Proof.Machine.execKick v s
  | .mbxstat v => Sys2Proof.Machine.execMbxstat v s
  | .networkWorkRequest r => Sys2Proof.Machine.execNetworkWorkRequest r s
  | .storageDma r => Sys2Proof.Machine.execStorageDma r s
  | .powerGood => Sys2Proof.Machine.execPowerGood s
  | .bootStageComplete ok => Sys2Proof.Machine.execBootStageComplete ok s
  | .attestationRequest nonce => Sys2Proof.Machine.execAttestationRequest nonce s
  | .pkgcap v => Sys2Proof.Machine.execPkgcap v s
  | .moduleInputTrip => Sys2Proof.Machine.execModuleInputTrip s
  | .moduleTripClear => Sys2Proof.Machine.execModuleTripClear s
  | .coldReset => Sys2Proof.Machine.execColdReset s
  | .registerWrite r v => Sys2Proof.Machine.execRegisterWrite r v s
  | .move w dst => Sys2Proof.Machine.execMove w dst s
  | .br w => Sys2Proof.Machine.execBr w s
  | .bri w => Sys2Proof.Machine.execBri w s
  | .call w => Sys2Proof.Machine.execCall w s
  | .calli w => Sys2Proof.Machine.execCalli w s
  | .ret w => Sys2Proof.Machine.execRet w s
  | .loop w => Sys2Proof.Machine.execLoop w s
  | .lexit w => Sys2Proof.Machine.execLexit w s
  | .mpcset w => Sys2Proof.Machine.execMpcset w s
  | .ntreq w => Sys2Proof.Machine.execNtreq w s
  | .bar w => Sys2Proof.Machine.execBar w s
  | .waitbm w => Sys2Proof.Machine.execWaitbm w s
  | .waitwp w => Sys2Proof.Machine.execWaitwp w s
  | .trap w => Sys2Proof.Machine.execTrap w s
  | .eret w => Sys2Proof.Machine.execEret w s
  | .timerset w => Sys2Proof.Machine.execTimerset w s
  | .rdsched w => Sys2Proof.Machine.execRdsched w s
  | .recw w => Sys2Proof.Machine.execRecw w s
  | .lease w => Sys2Proof.Machine.execLease w s
  | .halt w => Sys2Proof.Machine.execHalt w s
  | .brExt w => Sys2Proof.Machine.execBrExt w s
  | .briExt w => Sys2Proof.Machine.execBriExt w s
  | .callExt w => Sys2Proof.Machine.execCallExt w s
  | .calliExt w => Sys2Proof.Machine.execCalliExt w s
  | .retExt w => Sys2Proof.Machine.execRetExt w s
  | .loopExt w => Sys2Proof.Machine.execLoopExt w s
  | .lexitExt w => Sys2Proof.Machine.execLexitExt w s
  | .mpcsetExt w => Sys2Proof.Machine.execMpcsetExt w s
  | .ntreqExt w => Sys2Proof.Machine.execNtreqExt w s
  | .barExt w => Sys2Proof.Machine.execBarExt w s
  | .waitbmExt w => Sys2Proof.Machine.execWaitbmExt w s
  | .waitwpExt w => Sys2Proof.Machine.execWaitwpExt w s
  | .trapExt w => Sys2Proof.Machine.execTrapExt w s
  | .eretExt w => Sys2Proof.Machine.execEretExt w s
  | .timersetExt w => Sys2Proof.Machine.execTimersetExt w s
  | .rdschedExt w => Sys2Proof.Machine.execRdschedExt w s
  | .recwExt w => Sys2Proof.Machine.execRecwExt w s
  | .leaseExt w => Sys2Proof.Machine.execLeaseExt w s
  | .haltExt w => Sys2Proof.Machine.execHaltExt w s
  | .add w => Sys2Proof.Machine.execAdd w s
  | .sub w => Sys2Proof.Machine.execSub w s
  | .addS w => Sys2Proof.Machine.execAddS w s
  | .subS w => Sys2Proof.Machine.execSubS w s
  | .and w => Sys2Proof.Machine.execAnd w s
  | .or w => Sys2Proof.Machine.execOr w s
  | .xor w => Sys2Proof.Machine.execXor w s
  | .andn w => Sys2Proof.Machine.execAndn w s
  | .shl w => Sys2Proof.Machine.execShl w s
  | .shr w => Sys2Proof.Machine.execShr w s
  | .sar w => Sys2Proof.Machine.execSar w s
  | .ror w => Sys2Proof.Machine.execRor w s
  | .min w => Sys2Proof.Machine.execMin w s
  | .max w => Sys2Proof.Machine.execMax w s
  | .minu w => Sys2Proof.Machine.execMinu w s
  | .maxu w => Sys2Proof.Machine.execMaxu w s
  | .cmpeq w => Sys2Proof.Machine.execCmpeq w s
  | .cmpne w => Sys2Proof.Machine.execCmpne w s
  | .cmplt w => Sys2Proof.Machine.execCmplt w s
  | .cmple w => Sys2Proof.Machine.execCmple w s
  | .cmpltu w => Sys2Proof.Machine.execCmpltu w s
  | .cmpleu w => Sys2Proof.Machine.execCmpleu w s
  | .sel w => Sys2Proof.Machine.execSel w s
  | .ext w => Sys2Proof.Machine.execExt w s
  | .exts w => Sys2Proof.Machine.execExts w s
  | .ins w => Sys2Proof.Machine.execIns w s
  | .clz w => Sys2Proof.Machine.execClz w s
  | .popc w => Sys2Proof.Machine.execPopc w s
  | .addc w => Sys2Proof.Machine.execAddc w s
  | .carry w => Sys2Proof.Machine.execCarry w s
  | .subb w => Sys2Proof.Machine.execSubb w s
  | .borrow w => Sys2Proof.Machine.execBorrow w s
  | .mullo w => Sys2Proof.Machine.execMullo w s
  | .mulhi w => Sys2Proof.Machine.execMulhi w s
  | .mulhiu w => Sys2Proof.Machine.execMulhiu w s
  | .addExt w => Sys2Proof.Machine.execAddExt w s
  | .subExt w => Sys2Proof.Machine.execSubExt w s
  | .addSExt w => Sys2Proof.Machine.execAddSExt w s
  | .subSExt w => Sys2Proof.Machine.execSubSExt w s
  | .andExt w => Sys2Proof.Machine.execAndExt w s
  | .orExt w => Sys2Proof.Machine.execOrExt w s
  | .xorExt w => Sys2Proof.Machine.execXorExt w s
  | .andnExt w => Sys2Proof.Machine.execAndnExt w s
  | .shlExt w => Sys2Proof.Machine.execShlExt w s
  | .shrExt w => Sys2Proof.Machine.execShrExt w s
  | .sarExt w => Sys2Proof.Machine.execSarExt w s
  | .rorExt w => Sys2Proof.Machine.execRorExt w s
  | .minExt w => Sys2Proof.Machine.execMinExt w s
  | .maxExt w => Sys2Proof.Machine.execMaxExt w s
  | .minuExt w => Sys2Proof.Machine.execMinuExt w s
  | .maxuExt w => Sys2Proof.Machine.execMaxuExt w s
  | .cmpeqExt w => Sys2Proof.Machine.execCmpeqExt w s
  | .cmpneExt w => Sys2Proof.Machine.execCmpneExt w s
  | .cmpltExt w => Sys2Proof.Machine.execCmpltExt w s
  | .cmpleExt w => Sys2Proof.Machine.execCmpleExt w s
  | .cmpltuExt w => Sys2Proof.Machine.execCmpltuExt w s
  | .cmpleuExt w => Sys2Proof.Machine.execCmpleuExt w s
  | .selExt w => Sys2Proof.Machine.execSelExt w s
  | .extExt w => Sys2Proof.Machine.execExtExt w s
  | .extsExt w => Sys2Proof.Machine.execExtsExt w s
  | .insExt w => Sys2Proof.Machine.execInsExt w s
  | .clzExt w => Sys2Proof.Machine.execClzExt w s
  | .popcExt w => Sys2Proof.Machine.execPopcExt w s
  | .addcExt w => Sys2Proof.Machine.execAddcExt w s
  | .carryExt w => Sys2Proof.Machine.execCarryExt w s
  | .subbExt w => Sys2Proof.Machine.execSubbExt w s
  | .borrowExt w => Sys2Proof.Machine.execBorrowExt w s
  | .mulloExt w => Sys2Proof.Machine.execMulloExt w s
  | .mulhiExt w => Sys2Proof.Machine.execMulhiExt w s
  | .mulhiuExt w => Sys2Proof.Machine.execMulhiuExt w s
  | .aadd w => Sys2Proof.Machine.execAadd w s
  | .asub w => Sys2Proof.Machine.execAsub w s
  | .aidx w => Sys2Proof.Machine.execAidx w s
  | .acirc w => Sys2Proof.Machine.execAcirc w s
  | .aand w => Sys2Proof.Machine.execAand w s
  | .aor w => Sys2Proof.Machine.execAor w s
  | .ashl w => Sys2Proof.Machine.execAshl w s
  | .ashr w => Sys2Proof.Machine.execAshr w s
  | .atop w => Sys2Proof.Machine.execAtop w s
  | .acmpeq w => Sys2Proof.Machine.execAcmpeq w s
  | .acmpltu w => Sys2Proof.Machine.execAcmpltu w s
  | .ajoin w => Sys2Proof.Machine.execAjoin w s
  | .aaddExt w => Sys2Proof.Machine.execAaddExt w s
  | .asubExt w => Sys2Proof.Machine.execAsubExt w s
  | .aidxExt w => Sys2Proof.Machine.execAidxExt w s
  | .acircExt w => Sys2Proof.Machine.execAcircExt w s
  | .aandExt w => Sys2Proof.Machine.execAandExt w s
  | .aorExt w => Sys2Proof.Machine.execAorExt w s
  | .ashlExt w => Sys2Proof.Machine.execAshlExt w s
  | .ashrExt w => Sys2Proof.Machine.execAshrExt w s
  | .atopExt w => Sys2Proof.Machine.execAtopExt w s
  | .acmpeqExt w => Sys2Proof.Machine.execAcmpeqExt w s
  | .acmpltuExt w => Sys2Proof.Machine.execAcmpltuExt w s
  | .ajoinExt w => Sys2Proof.Machine.execAjoinExt w s
  | .pnz w k => Sys2Proof.Machine.execPnz w k s
  | .vfadd w rm => Sys2Proof.Machine.execVfadd w rm s
  | .vfsub w rm => Sys2Proof.Machine.execVfsub w rm s
  | .vfmul w rm => Sys2Proof.Machine.execVfmul w rm s
  | .vfma w rm => Sys2Proof.Machine.execVfma w rm s
  | .vfmin w => Sys2Proof.Machine.execVfmin w s
  | .vfmax w => Sys2Proof.Machine.execVfmax w s
  | .vfcmpeq w => Sys2Proof.Machine.execVfcmpeq w s
  | .vfcmplt w => Sys2Proof.Machine.execVfcmplt w s
  | .vfcmple w => Sys2Proof.Machine.execVfcmple w s
  | .vfcmpun w => Sys2Proof.Machine.execVfcmpun w s
  | .vfradd w => Sys2Proof.Machine.execVfradd w s
  | .vfrmax w => Sys2Proof.Machine.execVfrmax w s
  | .vfrmin w => Sys2Proof.Machine.execVfrmin w s
  | .cvt w => Sys2Proof.Machine.execCvt w s
  | .cvtAmax w => Sys2Proof.Machine.execCvtAmax w s
  | .vadd w => Sys2Proof.Machine.execVadd w s
  | .vsub w => Sys2Proof.Machine.execVsub w s
  | .vaddS w => Sys2Proof.Machine.execVaddS w s
  | .vsubS w => Sys2Proof.Machine.execVsubS w s
  | .vadduS w => Sys2Proof.Machine.execVadduS w s
  | .vsubuS w => Sys2Proof.Machine.execVsubuS w s
  | .vmul w => Sys2Proof.Machine.execVmul w s
  | .vmin w => Sys2Proof.Machine.execVmin w s
  | .vmax w => Sys2Proof.Machine.execVmax w s
  | .vminu w => Sys2Proof.Machine.execVminu w s
  | .vmaxu w => Sys2Proof.Machine.execVmaxu w s
  | .vabs w => Sys2Proof.Machine.execVabs w s
  | .vshl w => Sys2Proof.Machine.execVshl w s
  | .vshr w => Sys2Proof.Machine.execVshr w s
  | .vsar w => Sys2Proof.Machine.execVsar w s
  | .vand w => Sys2Proof.Machine.execVand w s
  | .vor w => Sys2Proof.Machine.execVor w s
  | .vxor w => Sys2Proof.Machine.execVxor w s
  | .vandn w => Sys2Proof.Machine.execVandn w s
  | .vcmpeq w => Sys2Proof.Machine.execVcmpeq w s
  | .vcmpne w => Sys2Proof.Machine.execVcmpne w s
  | .vcmplt w => Sys2Proof.Machine.execVcmplt w s
  | .vcmple w => Sys2Proof.Machine.execVcmple w s
  | .vcmpltu w => Sys2Proof.Machine.execVcmpltu w s
  | .vcmpleu w => Sys2Proof.Machine.execVcmpleu w s
  | .vradd w => Sys2Proof.Machine.execVradd w s
  | .vrmax w => Sys2Proof.Machine.execVrmax w s
  | .vrmin w => Sys2Proof.Machine.execVrmin w s
  | .vdot4S w => Sys2Proof.Machine.execVdot4S w s
  | .vmix w => Sys2Proof.Machine.execVmix w s
  | .vperm w => Sys2Proof.Machine.execVperm w s
  | .vbcast w => Sys2Proof.Machine.execVbcast w s
  | .vrot w => Sys2Proof.Machine.execVrot w s
  | .vins w => Sys2Proof.Machine.execVins w s
  | .vext w => Sys2Proof.Machine.execVext w s
  | .vpack w => Sys2Proof.Machine.execVpack w s
  | .vpackS w => Sys2Proof.Machine.execVpackS w s
  | .vunpkl w => Sys2Proof.Machine.execVunpkl w s
  | .vunpkh w => Sys2Proof.Machine.execVunpkh w s
  | .vsel w => Sys2Proof.Machine.execVsel w s
  | .vtag w => Sys2Proof.Machine.execVtag w s
  | .viota w => Sys2Proof.Machine.execViota w s
  | .vfaddExt w rm => Sys2Proof.Machine.execVfaddExt w rm s
  | .vfsubExt w rm => Sys2Proof.Machine.execVfsubExt w rm s
  | .vfmulExt w rm => Sys2Proof.Machine.execVfmulExt w rm s
  | .vfmaExt w rm => Sys2Proof.Machine.execVfmaExt w rm s
  | .vfminExt w => Sys2Proof.Machine.execVfminExt w s
  | .vfmaxExt w => Sys2Proof.Machine.execVfmaxExt w s
  | .vfcmpeqExt w => Sys2Proof.Machine.execVfcmpeqExt w s
  | .vfcmpltExt w => Sys2Proof.Machine.execVfcmpltExt w s
  | .vfcmpleExt w => Sys2Proof.Machine.execVfcmpleExt w s
  | .vfcmpunExt w => Sys2Proof.Machine.execVfcmpunExt w s
  | .vfraddExt w => Sys2Proof.Machine.execVfraddExt w s
  | .vfrmaxExt w => Sys2Proof.Machine.execVfrmaxExt w s
  | .vfrminExt w => Sys2Proof.Machine.execVfrminExt w s
  | .cvtExt w => Sys2Proof.Machine.execCvtExt w s
  | .cvtAmaxExt w => Sys2Proof.Machine.execCvtAmaxExt w s
  | .vaddExt w => Sys2Proof.Machine.execVaddExt w s
  | .vsubExt w => Sys2Proof.Machine.execVsubExt w s
  | .vaddSExt w => Sys2Proof.Machine.execVaddSExt w s
  | .vsubSExt w => Sys2Proof.Machine.execVsubSExt w s
  | .vadduSExt w => Sys2Proof.Machine.execVadduSExt w s
  | .vsubuSExt w => Sys2Proof.Machine.execVsubuSExt w s
  | .vmulExt w => Sys2Proof.Machine.execVmulExt w s
  | .vminExt w => Sys2Proof.Machine.execVminExt w s
  | .vmaxExt w => Sys2Proof.Machine.execVmaxExt w s
  | .vminuExt w => Sys2Proof.Machine.execVminuExt w s
  | .vmaxuExt w => Sys2Proof.Machine.execVmaxuExt w s
  | .vabsExt w => Sys2Proof.Machine.execVabsExt w s
  | .vshlExt w => Sys2Proof.Machine.execVshlExt w s
  | .vshrExt w => Sys2Proof.Machine.execVshrExt w s
  | .vsarExt w => Sys2Proof.Machine.execVsarExt w s
  | .vandExt w => Sys2Proof.Machine.execVandExt w s
  | .vorExt w => Sys2Proof.Machine.execVorExt w s
  | .vxorExt w => Sys2Proof.Machine.execVxorExt w s
  | .vandnExt w => Sys2Proof.Machine.execVandnExt w s
  | .vcmpeqExt w => Sys2Proof.Machine.execVcmpeqExt w s
  | .vcmpneExt w => Sys2Proof.Machine.execVcmpneExt w s
  | .vcmpltExt w => Sys2Proof.Machine.execVcmpltExt w s
  | .vcmpleExt w => Sys2Proof.Machine.execVcmpleExt w s
  | .vcmpltuExt w => Sys2Proof.Machine.execVcmpltuExt w s
  | .vcmpleuExt w => Sys2Proof.Machine.execVcmpleuExt w s
  | .vraddExt w => Sys2Proof.Machine.execVraddExt w s
  | .vrmaxExt w => Sys2Proof.Machine.execVrmaxExt w s
  | .vrminExt w => Sys2Proof.Machine.execVrminExt w s
  | .vdot4SExt w => Sys2Proof.Machine.execVdot4SExt w s
  | .vmixExt w => Sys2Proof.Machine.execVmixExt w s
  | .vpermExt w => Sys2Proof.Machine.execVpermExt w s
  | .vbcastExt w => Sys2Proof.Machine.execVbcastExt w s
  | .vrotExt w => Sys2Proof.Machine.execVrotExt w s
  | .vinsExt w => Sys2Proof.Machine.execVinsExt w s
  | .vextExt w => Sys2Proof.Machine.execVextExt w s
  | .vpackExt w => Sys2Proof.Machine.execVpackExt w s
  | .vpackSExt w => Sys2Proof.Machine.execVpackSExt w s
  | .vunpklExt w => Sys2Proof.Machine.execVunpklExt w s
  | .vunpkhExt w => Sys2Proof.Machine.execVunpkhExt w s
  | .vselExt w => Sys2Proof.Machine.execVselExt w s
  | .vtagExt w => Sys2Proof.Machine.execVtagExt w s
  | .viotaExt w => Sys2Proof.Machine.execViotaExt w s
  | .rcp w => Sys2Proof.Machine.execRcp w s
  | .rsq w => Sys2Proof.Machine.execRsq w s
  | .sqrt w => Sys2Proof.Machine.execSqrt w s
  | .exp2 w => Sys2Proof.Machine.execExp2 w s
  | .log2 w => Sys2Proof.Machine.execLog2 w s
  | .tanh w => Sys2Proof.Machine.execTanh w s
  | .sigm w => Sys2Proof.Machine.execSigm w s
  | .erf w => Sys2Proof.Machine.execErf w s
  | .ldB w => Sys2Proof.Machine.execLdB w s
  | .ldBu w => Sys2Proof.Machine.execLdBu w s
  | .ldH w => Sys2Proof.Machine.execLdH w s
  | .ldHu w => Sys2Proof.Machine.execLdHu w s
  | .ldW w => Sys2Proof.Machine.execLdW w s
  | .vld w => Sys2Proof.Machine.execVld w s
  | .vlds w => Sys2Proof.Machine.execVlds w s
  | .stB w => Sys2Proof.Machine.execStB w s
  | .stH w => Sys2Proof.Machine.execStH w s
  | .stW w => Sys2Proof.Machine.execStW w s
  | .stD w => Sys2Proof.Machine.execStD w s
  | .vst w => Sys2Proof.Machine.execVst w s
  | .vstm w => Sys2Proof.Machine.execVstm w s
  | .atadd w => Sys2Proof.Machine.execAtadd w s
  | .atmin w => Sys2Proof.Machine.execAtmin w s
  | .atmax w => Sys2Proof.Machine.execAtmax w s
  | .atminu w => Sys2Proof.Machine.execAtminu w s
  | .atmaxu w => Sys2Proof.Machine.execAtmaxu w s
  | .atand w => Sys2Proof.Machine.execAtand w s
  | .ator w => Sys2Proof.Machine.execAtor w s
  | .atswp w => Sys2Proof.Machine.execAtswp w s
  | .atcas w => Sys2Proof.Machine.execAtcas w s
  | .fill w => Sys2Proof.Machine.execFill w s
  | .ldsc w => Sys2Proof.Machine.execLdsc w s
  | .probe w => Sys2Proof.Machine.execProbe w s
  | .wpset w => Sys2Proof.Machine.execWpset w s
  | .evac w => Sys2Proof.Machine.execEvac w s
  | .ldBExt w => Sys2Proof.Machine.execLdBExt w s
  | .ldBuExt w => Sys2Proof.Machine.execLdBuExt w s
  | .ldHExt w => Sys2Proof.Machine.execLdHExt w s
  | .ldHuExt w => Sys2Proof.Machine.execLdHuExt w s
  | .ldWExt w => Sys2Proof.Machine.execLdWExt w s
  | .vldExt w => Sys2Proof.Machine.execVldExt w s
  | .vldsExt w => Sys2Proof.Machine.execVldsExt w s
  | .stBExt w => Sys2Proof.Machine.execStBExt w s
  | .stHExt w => Sys2Proof.Machine.execStHExt w s
  | .stWExt w => Sys2Proof.Machine.execStWExt w s
  | .stDExt w => Sys2Proof.Machine.execStDExt w s
  | .vstExt w => Sys2Proof.Machine.execVstExt w s
  | .vstmExt w => Sys2Proof.Machine.execVstmExt w s
  | .ataddExt w => Sys2Proof.Machine.execAtaddExt w s
  | .atminExt w => Sys2Proof.Machine.execAtminExt w s
  | .atmaxExt w => Sys2Proof.Machine.execAtmaxExt w s
  | .atminuExt w => Sys2Proof.Machine.execAtminuExt w s
  | .atmaxuExt w => Sys2Proof.Machine.execAtmaxuExt w s
  | .atandExt w => Sys2Proof.Machine.execAtandExt w s
  | .atorExt w => Sys2Proof.Machine.execAtorExt w s
  | .atswpExt w => Sys2Proof.Machine.execAtswpExt w s
  | .atcasExt w => Sys2Proof.Machine.execAtcasExt w s
  | .fillExt w => Sys2Proof.Machine.execFillExt w s
  | .ldscExt w => Sys2Proof.Machine.execLdscExt w s
  | .probeExt w => Sys2Proof.Machine.execProbeExt w s
  | .wpsetExt w => Sys2Proof.Machine.execWpsetExt w s
  | .evacExt w => Sys2Proof.Machine.execEvacExt w s
  | .cpy w => Sys2Proof.Machine.execCpy w s
  | .cpys w => Sys2Proof.Machine.execCpys w s
  | .xfer w => Sys2Proof.Machine.execXfer w s
  | .catom w => Sys2Proof.Machine.execCatom w s
  | .shape w => Sys2Proof.Machine.execShape w s
  | .dct w => Sys2Proof.Machine.execDct w s
  | .cbclr w => Sys2Proof.Machine.execCbclr w s
  | .wpclr w => Sys2Proof.Machine.execWpclr w s
  | .cpyExt w => Sys2Proof.Machine.execCpyExt w s
  | .cpysExt w => Sys2Proof.Machine.execCpysExt w s
  | .xferExt w => Sys2Proof.Machine.execXferExt w s
  | .catomExt w => Sys2Proof.Machine.execCatomExt w s
  | .shapeExt w => Sys2Proof.Machine.execShapeExt w s
  | .dctExt w => Sys2Proof.Machine.execDctExt w s
  | .cbclrExt w => Sys2Proof.Machine.execCbclrExt w s
  | .wpclrExt w => Sys2Proof.Machine.execWpclrExt w s
  | .signal w => Sys2Proof.Machine.execSignal w s
  | .gmark w => Sys2Proof.Machine.execGmark w s
  | .mcfg w e => Sys2Proof.Machine.execMcfg w e s
  | .mdrain w e => Sys2Proof.Machine.execMdrain w e s
  | .mcall w e => Sys2Proof.Machine.execMcall w e s
  | .claim w e => Sys2Proof.Machine.execClaim w e s
  | .release w e => Sys2Proof.Machine.execRelease w e s
  | .mput w e => Sys2Proof.Machine.execMput w e s
  | .mget w e => Sys2Proof.Machine.execMget w e s
  | .mzero w e => Sys2Proof.Machine.execMzero w e s
  | .mlget w e => Sys2Proof.Machine.execMlget w e s
  | .mpsw w e => Sys2Proof.Machine.execMpsw w e s
  | .lend w => Sys2Proof.Machine.execLend w s
  | .reclaim w => Sys2Proof.Machine.execReclaim w s
  | .mcfgExt w e => Sys2Proof.Machine.execMcfgExt w e s
  | .mdrainExt w e => Sys2Proof.Machine.execMdrainExt w e s
  | .mcallExt w e => Sys2Proof.Machine.execMcallExt w e s
  | .claimExt w e => Sys2Proof.Machine.execClaimExt w e s
  | .releaseExt w e => Sys2Proof.Machine.execReleaseExt w e s
  | .mputExt w e => Sys2Proof.Machine.execMputExt w e s
  | .mgetExt w e => Sys2Proof.Machine.execMgetExt w e s
  | .mzeroExt w e => Sys2Proof.Machine.execMzeroExt w e s
  | .mlgetExt w e => Sys2Proof.Machine.execMlgetExt w e s
  | .mpswExt w e => Sys2Proof.Machine.execMpswExt w e s
  | .lendExt w => Sys2Proof.Machine.execLendExt w s
  | .reclaimExt w => Sys2Proof.Machine.execReclaimExt w s
  | .mend => Sys2Proof.Machine.execMend s
  | .msela m => Sys2Proof.Machine.execMsela m s
  | .mselb m => Sys2Proof.Machine.execMselb m s
  | .mldx d m f => Sys2Proof.Machine.execMldx d m f s
  | .msetx d imm => Sys2Proof.Machine.execMsetx d imm s
  | .maddx d imm => Sys2Proof.Machine.execMaddx d imm s
  | .mloop d e => Sys2Proof.Machine.execMloop d e s
  | .mnext => Sys2Proof.Machine.execMnext s
  | .mblk f => Sys2Proof.Machine.execMblk f s
  | .macc q d z => Sys2Proof.Machine.execMacc q d z s
  | .mmac q di dj dk dl => Sys2Proof.Machine.execMmac q di dj dk dl s
  | .mspr on => Sys2Proof.Machine.execMspr on s
  | .mbz d t => Sys2Proof.Machine.execMbz d t s
  | .mjmp t => Sys2Proof.Machine.execMjmp t s
  | .mwait n => Sys2Proof.Machine.execMwait n s
  | .mnop => Sys2Proof.Machine.execMnop s
  | .hostFunctionAccess a => Sys2Proof.Machine.execHostFunctionAccess a s
  | .sbctlWrite v => Sys2Proof.Machine.execSbctlWrite v s

end Sys2Proof.Machine
end

