-- ==== Sys2Proof/Machine/Step.lean ====
section
/-!
DEFINITION. One step of the machine: the next thing due at the present instant, or, when nothing is, the next tick of the
PCC; and how one instruction's word is made the next thing due.
-/
namespace Sys2Proof.Machine

/-- One step. -/
def step (s : State) : Host.Outcome State Fault Refusal :=
  match s.todo with
  | [] => .next s.tick
  | t :: rest => State.carryOut { s with todo := rest } t exec

/-- The state with the instruction of a table word as the next thing due (assumption 3). -/
noncomputable def State.withFetchWord (s : State) (nbits w : Nat) : State := s.withWord (decodeTableWord nbits w)

end Sys2Proof.Machine
end

