-- ==== Sys2Proof/Safety.lean ====
section
/-!
DEFINITION. A safe run: no step stops.
-/
namespace Sys2Proof.Machine

/-- The step from s answers a next state. -/
def StepsOn (s : State) : Prop := ∃ t, step s = .next t

end Sys2Proof.Machine
end

