-- ==== Sys2Proof/WellFormed.lean ====
section
/-!
DEFINITION. Which instructions are well formed: the fields the spec restricts hold legal values. A slot word's registers
are checked with its bundle (R85, R86), since what a slot may name depends on the slot and the context.
-/
namespace Sys2Proof

/-- A move's destination: a register other than p15, FLG, an operand port or an mp register of some class (R12, R76,
R78). -/
def moveDstOk (d : BitVec 9) : Bool :=
  (isRegDst d && d != 0x7F) || isPort .c0 d || (0x1B0 ≤ d.toNat && d.toNat ≤ 0x1BF)

/-- A physical row: of the 12,800 of the pool or the 2,048 of the Larder (R235, R237). -/
def RowRef.ok (r : RowRef) : Bool :=
  match r with
  | .pool n => decide (n < 12800)
  | .larder n => decide (n < 2048)

/-- Data of a write are as long as the access says; a read carries none. -/
def dataOk (write : Bool) (len : Nat) (data : List Byte) : Bool :=
  if write then data.length == len else data.isEmpty

/-- Well-formed instructions. -/
def Instr.wf (i : Instr) : Bool :=
  match i with
  | .move _ d => moveDstOk d
  | .pnz _ k => k != 0 && k != 15
  | .mblk f => decide (f.toNat ≤ 5)
  | .inFieldTest row _ => row.ok
  | .patrolRead row _ => row.ok
  | .flitReplay b => b != 3
  | .linkFailure b => b != 3
  | .linkTrainingEnd b _ => b != 3
  | .networkWorkRequest r => dataOk (r.write && !r.atomic) r.len r.data && (!r.atomic || r.len == 8) && decide (r.qp < 8192)
  | .storageDma r => dataOk r.write r.len r.data
  | .hostFunctionAccess a => dataOk a.write a.len a.data && decide (a.off + a.len ≤ if a.bar0 then 65536 else 2 ^ 36) &&
      decide (1 ≤ a.vf) && decide (a.vf ≤ 48)
  | .registerWrite (.weight _ c) _ => decide (c.toNat < 14)
  | _ => true

end Sys2Proof
end

