-- ==== Sys2Proof/Certificates/Slice0/Obligations.lean ====
section
/-!
DEFINITION. The statements for the provers, with the words they are made in. A statement that gives the next state whole
says the frame with it: whatever the given state does not change keeps its value.
-/
namespace Sys2Proof.Machine

/-! ## Words of the statements -/

/-- A slot executes: its guard holds and it may read its source (R69, R74). -/
def Runs (w : Slot) (s : State) : Prop := s.guard w.gd = true ∧ s.srcOk w.src = true
/-- An extended slot executes: its guard holds, its extension word e is the next long immediate, and all of its sources may
be read (R71, R72). -/
def RunsExt (w : Slot) (e : Word24) (rest : List Word24) (s : State) : Prop :=
  s.guard w.gd = true ∧ s.frame.rest = e :: rest ∧ s.extOk e = true ∧ s.srcOk w.src = true
/-- The state in which an extended slot fires: its extension word is consumed, XSRC is moved to the port x and YSRC to the
port y (R72). -/
def armed (e : Word24) (rest : List Word24) (x y : Nat) (s : State) : State :=
  ({ s with frame := { s.frame with rest := rest } }.setOpnd x (s.srcVal (extX e))).setOpnd y (s.srcVal (extY e))

/-- A trigger's two forms with the effect of firing it with a value. -/
structure Trig where
  port : Slot → Instr
  ext : Slot → Instr
  eff : TVal → State → State

/-- Both forms of a trigger answer the state its firing gives, wherever the slot executes and the firing is permitted. -/
def Trig.fires (r : Trig) (x y : Nat) (ok : TVal → State → Prop) : Prop :=
  (∀ (w : Slot) (s : State), Runs w s → ok (s.srcVal w.src) s →
    exec (r.port w) s = .next (r.eff (s.srcVal w.src) s)) ∧
  (∀ (w : Slot) (e : Word24) (rest : List Word24) (s : State), RunsExt w e rest s →
    ok (s.srcVal w.src) (armed e rest x y s) →
    exec (r.ext w) s = .next (r.eff (s.srcVal w.src) (armed e rest x y s)))

/-- The signed reading of a word. -/
def sg (v : W32) : Int := v.toInt
/-- The unsigned reading of a word. -/
def un (v : W32) : Int := Int.ofNat v.toNat
/-- 1 or 0. -/
def oneIf (p : Bool) : Int := if p then 1 else 0
/-- 2 to the shift amount c[4:0]. -/
def shift2 (c : W32) : Int := Int.ofNat (2 ^ (c.toNat % 32))

/-! ## Scalar and address operations (R113 to R118) -/

/-- A row of R115's table: the two forms, L, f_T as an integer, and whether SAT is raised. -/
structure ScalarRow where
  port : Slot → Instr
  ext : Slot → Instr
  lat : Nat
  f : W32 → W32 → W32 → Int
  sat : W32 → W32 → Bool := fun _ _ => false

/-- An integer clamped to 32 signed bits. -/
def clamp32 (z : Int) : Int := max (-2147483648) (min 2147483647 z)
/-- The field of R116: position, length, and the field of a. -/
def fPos (c : W32) : Nat := c.toNat % 32
def fLen (c : W32) : Nat := c.toNat / 32 % 32 + 1
def fOf (a c : W32) : Nat := a.toNat / 2 ^ fPos c % 2 ^ fLen c

/-- R115's table, with the fields of R116. -/
def scalarRows : List ScalarRow := [
  ⟨.add, .addExt, 1, fun a _ c => un a + un c, fun _ _ => false⟩,
  ⟨.sub, .subExt, 1, fun a _ c => un a - un c, fun _ _ => false⟩,
  ⟨.addS, .addSExt, 1, fun a _ c => clamp32 (sg a + sg c), fun a c => clamp32 (sg a + sg c) != sg a + sg c⟩,
  ⟨.subS, .subSExt, 1, fun a _ c => clamp32 (sg a - sg c), fun a c => clamp32 (sg a - sg c) != sg a - sg c⟩,
  ⟨.and, .andExt, 1, fun a _ c => Int.ofNat (a.toNat &&& c.toNat), fun _ _ => false⟩,
  ⟨.or, .orExt, 1, fun a _ c => Int.ofNat (a.toNat ||| c.toNat), fun _ _ => false⟩,
  ⟨.xor, .xorExt, 1, fun a _ c => Int.ofNat (a.toNat ^^^ c.toNat), fun _ _ => false⟩,
  ⟨.andn, .andnExt, 1, fun a _ c => Int.ofNat (a.toNat &&& (2 ^ 32 - 1 - c.toNat)), fun _ _ => false⟩,
  ⟨.shl, .shlExt, 1, fun a _ c => un a * shift2 c, fun _ _ => false⟩,
  ⟨.shr, .shrExt, 1, fun a _ c => un a / shift2 c, fun _ _ => false⟩,
  ⟨.sar, .sarExt, 1, fun a _ c => sg a / shift2 c, fun _ _ => false⟩,
  ⟨.ror, .rorExt, 1, fun a _ c => un a / shift2 c + un a * (2 ^ 32 / shift2 c), fun _ _ => false⟩,
  ⟨.min, .minExt, 1, fun a _ c => min (sg a) (sg c), fun _ _ => false⟩,
  ⟨.max, .maxExt, 1, fun a _ c => max (sg a) (sg c), fun _ _ => false⟩,
  ⟨.minu, .minuExt, 1, fun a _ c => min (un a) (un c), fun _ _ => false⟩,
  ⟨.maxu, .maxuExt, 1, fun a _ c => max (un a) (un c), fun _ _ => false⟩,
  ⟨.cmpeq, .cmpeqExt, 1, fun a _ c => oneIf (a == c), fun _ _ => false⟩,
  ⟨.cmpne, .cmpneExt, 1, fun a _ c => oneIf (a != c), fun _ _ => false⟩,
  ⟨.cmplt, .cmpltExt, 1, fun a _ c => oneIf (decide (sg a < sg c)), fun _ _ => false⟩,
  ⟨.cmple, .cmpleExt, 1, fun a _ c => oneIf (decide (sg a ≤ sg c)), fun _ _ => false⟩,
  ⟨.cmpltu, .cmpltuExt, 1, fun a _ c => oneIf (decide (un a < un c)), fun _ _ => false⟩,
  ⟨.cmpleu, .cmpleuExt, 1, fun a _ c => oneIf (decide (un a ≤ un c)), fun _ _ => false⟩,
  ⟨.sel, .selExt, 1, fun a b c => if c.getLsbD 0 then un a else un b, fun _ _ => false⟩,
  ⟨.ext, .extExt, 1, fun a _ c => Int.ofNat (fOf a c), fun _ _ => false⟩,
  ⟨.exts, .extsExt, 1, fun a _ c => if (fOf a c).testBit (fLen c - 1) then Int.ofNat (fOf a c) - 2 ^ fLen c
    else Int.ofNat (fOf a c), fun _ _ => false⟩,
  ⟨.ins, .insExt, 1, fun a b c =>
    let m := (2 ^ fLen c - 1) * 2 ^ fPos c % 2 ^ 32
    Int.ofNat ((a.toNat &&& (2 ^ 32 - 1 - m)) ||| (b.toNat * 2 ^ fPos c % 2 ^ 32 &&& m)), fun _ _ => false⟩,
  ⟨.clz, .clzExt, 1, fun _ _ c => Int.ofNat (((List.range 32).takeWhile fun i => !c.getLsbD (31 - i)).length), fun _ _ => false⟩,
  ⟨.popc, .popcExt, 1, fun _ _ c => Int.ofNat ((List.range 32).countP fun i => c.getLsbD i), fun _ _ => false⟩,
  ⟨.addc, .addcExt, 1, fun a b c => un a + un b + oneIf (c.getLsbD 0), fun _ _ => false⟩,
  ⟨.carry, .carryExt, 1, fun a b c => (un a + un b + oneIf (c.getLsbD 0)) / 2 ^ 32, fun _ _ => false⟩,
  ⟨.subb, .subbExt, 1, fun a b c => un a - un b - oneIf (c.getLsbD 0), fun _ _ => false⟩,
  ⟨.borrow, .borrowExt, 1, fun a b c => oneIf (decide (un a < un b + oneIf (c.getLsbD 0))), fun _ _ => false⟩,
  ⟨.mullo, .mulloExt, 3, fun a _ c => un a * un c, fun _ _ => false⟩,
  ⟨.mulhi, .mulhiExt, 3, fun a _ c => sg a * sg c / 2 ^ 32, fun _ _ => false⟩,
  ⟨.mulhiu, .mulhiuExt, 3, fun a _ c => un a * un c / 2 ^ 32, fun _ _ => false⟩]

/-- What firing a scalar row does: f_T mod 2^32 of SAn.x, SAn.y and t is due at SAn.q, L schedule cycles on (R115). -/
def ScalarRow.eff (r : ScalarRow) (t : TVal) (s : State) : State :=
  let a : W32 := (s.opnd 0x100).val.setWidth 32
  let b : W32 := (s.opnd 0x101).val.setWidth 32
  let c : W32 := t.val.setWidth 32
  s.pushResult (0x90 + s.frame.cur.slot) r.lat (plain (r.f a b c % 2 ^ 32).toNat) (if r.sat a c then Flags.sat else 0)

/-- The low word of an address operand, signed. -/
def sgLow (c : W64) : Int := (c.setWidth 32).toInt

/-- A row of R117's table: the two forms and f_T. -/
structure AddrRow where
  port : Slot → Instr
  ext : Slot → Instr
  f : W64 → W64 → W64 → Int

def addrRows : List AddrRow := [
  ⟨.aadd, .aaddExt, fun a _ c => Int.ofNat (a.toNat + c.toNat)⟩,
  ⟨.asub, .asubExt, fun a _ c => Int.ofNat a.toNat - Int.ofNat c.toNat⟩,
  ⟨.aidx, .aidxExt, fun a b c => Int.ofNat a.toNat + sgLow c * Int.ofNat (2 ^ (b.toNat % 16))⟩,
  ⟨.acirc, .acircExt, fun a b c => if b = 0 then Int.ofNat a.toNat + sgLow c
    else (Int.ofNat a.toNat + sgLow c) % Int.ofNat b.toNat⟩,
  ⟨.aand, .aandExt, fun a _ c => Int.ofNat (a.toNat &&& c.toNat)⟩,
  ⟨.aor, .aorExt, fun a _ c => Int.ofNat (a.toNat ||| c.toNat)⟩,
  ⟨.ashl, .ashlExt, fun a _ c => Int.ofNat (a.toNat * 2 ^ (c.toNat % 64))⟩,
  ⟨.ashr, .ashrExt, fun a _ c => Int.ofNat (a.toNat / 2 ^ (c.toNat % 64))⟩,
  ⟨.atop, .atopExt, fun _ _ c => oneIf (c.getLsbD 63)⟩,
  ⟨.acmpeq, .acmpeqExt, fun a _ c => oneIf (a == c)⟩,
  ⟨.acmpltu, .acmpltuExt, fun a _ c => oneIf (decide (a.toNat < c.toNat))⟩,
  ⟨.ajoin, .ajoinExt, fun a _ c => Int.ofNat (a.toNat % 2 ^ 32 + c.toNat % 2 ^ 32 * 2 ^ 32)⟩]

/-- What firing an address row does: f_T mod 2^64 of AU.x, AU.y and t is due at AU.q one schedule cycle on (R117). -/
def AddrRow.eff (r : AddrRow) (t : TVal) (s : State) : State :=
  s.pushResult 0x92 1 (plain (r.f ((s.opnd 0x102).val.setWidth 64) ((s.opnd 0x103).val.setWidth 64)
    (t.val.setWidth 64) % 2 ^ 64).toNat) 0

/-! ## Rounding (R99 to R102) -/

/-- The formats a vector operation computes in (R97). -/
def wideFmts : List Fmt := [fp32, bf16, fp16]
/-- The exponent of a format's min subnormal, in whose units every finite value of the format is an integer. -/
def Fmt.unit (f : Fmt) : Int := 1 - Int.ofNat f.bias - Int.ofNat f.mb
/-- A finite code's value in those units. -/
def Fmt.int (f : Fmt) (c : Nat) : Option Int :=
  match f.value c with
  | .fin u => some (u.at f.unit)
  | _ => none
/-- The largest finite value, and the value one step above it, in those units. -/
def Fmt.maxInt (f : Fmt) : Nat := (2 ^ f.mb + f.maxCode % 2 ^ f.mb) * 2 ^ (f.maxCode / 2 ^ f.mb - 1)
def Fmt.topInt (f : Fmt) : Nat := f.maxInt + 2 ^ (f.maxCode / 2 ^ f.mb - 1)

/-- The value num / den in a format's units exceeds its range once rounded with an unbounded exponent (R101): a tie with the step above
goes to the even of the two. -/
def tooBig (f : Fmt) (rm : Rm) (num : Int) (den : Nat) : Prop :=
  match rm with
  | .rne => (f.maxInt + f.topInt) * den < 2 * num.natAbs ∨ ((f.maxInt + f.topInt) * den = 2 * num.natAbs ∧ f.maxCode % 2 = 1)
  | .rtz => f.topInt * den ≤ num.natAbs
  | .rdn => if num < 0 then f.maxInt * den < num.natAbs else f.topInt * den ≤ num.natAbs
  | .rup => if 0 < num then f.maxInt * den < num.natAbs else f.topInt * den ≤ num.natAbs
/-- What an overflow delivers; in a format without infinities the largest finite value (R102, R104). -/
def bigCode (f : Fmt) (rm : Rm) (neg : Bool) : Nat :=
  let inf : Bool := f.hasInf && match rm with | .rne => true | .rtz => false | .rdn => neg | .rup => !neg
  f.maxCode + (if inf then 1 else 0) + (if neg then 2 ^ (f.w - 1) else 0)
/-- v is the integer a mode rounds num / den to among a format's values; r is its code, even in a tie (R99). -/
def isRounded (f : Fmt) (rm : Rm) (num : Int) (den r : Nat) (v : Int) : Prop :=
  ∀ c u, f.int c = some u →
    match rm with
    | .rne => (num - v * den).natAbs ≤ (num - u * den).natAbs ∧
        ((num - v * den).natAbs = (num - u * den).natAbs → u ≠ v → r % 2 = 0)
    | .rtz => v.natAbs * den ≤ num.natAbs ∧ (u.natAbs * den ≤ num.natAbs → u.natAbs ≤ v.natAbs)
    | .rdn => v * den ≤ num ∧ (u * den ≤ num → u ≤ v)
    | .rup => num ≤ v * den ∧ (num ≤ u * den → v ≤ u)
/-- A code and its flags are num / den, not zero, rounded to a format (R99, R101, R102): a tiny result is one below the min
normal as delivered (assumption 18). -/
def roundsTo (f : Fmt) (rm : Rm) (num : Int) (den : Nat) (r : Nat × Flags) : Prop :=
  (tooBig f rm num den → r = (bigCode f rm (decide (num < 0)), Flags.of ||| Flags.nx)) ∧
  (¬tooBig f rm num den → r.1 < 2 ^ f.w ∧ r.1.testBit (f.w - 1) = decide (num < 0) ∧ ∃ v, f.int r.1 = some v ∧
    isRounded f rm num den r.1 v ∧
    r.2 = if v * den = num then 0 else if r.1 % 2 ^ (f.w - 1) < 2 ^ f.mb then Flags.nx ||| Flags.uf else Flags.nx)
/-- The same of a dyadic number, a zero keeping its sign. -/
def roundsDy (f : Fmt) (rm : Rm) (z : Dy) (r : Nat × Flags) : Prop :=
  if z.n = 0 then r = (if z.neg then 2 ^ (f.w - 1) else 0, 0)
  else if f.unit ≤ z.e then roundsTo f rm (z.at f.unit) 1 r
  else roundsTo f rm (z.at z.e) (2 ^ (f.unit - z.e).toNat) r

/-- The sign of a zero sum of two terms of these signs (R99). -/
def zeroSign (rm : Rm) (a b : Bool) : Bool := if a = b then a else decide (rm = .rdn)
/-- The exact sum of two dyadic numbers (R99). -/
def isSum (rm : Rm) (x y z : Dy) : Prop :=
  z.e = min x.e y.e ∧ z.at z.e = x.at z.e + y.at z.e ∧ (z.n = 0 → z.neg = zeroSign rm x.neg y.neg)
/-- The exact product. -/
def isProduct (x y z : Dy) : Prop :=
  z.e = x.e + y.e ∧ z.at z.e = x.at x.e * y.at y.e ∧ z.neg = (x.neg != y.neg)

/-- An invalid operation's result and flags, and a NaN operand's (R101, R102). -/
def invalid (f : Fmt) (r : Nat × Flags) : Prop := r = (f.nan.getD 0, Flags.nv ||| Flags.nanSeen)
def seesNan (f : Fmt) (r : Nat × Flags) : Prop := r = (f.nan.getD 0, Flags.nanSeen)
/-- An infinity delivered exactly. -/
def isInfinity (f : Fmt) (neg : Bool) (r : Nat × Flags) : Prop := r = (f.maxCode + 1 + (if neg then 2 ^ (f.w - 1) else 0), 0)

/-- The numeric order of two codes, infinities at its ends: below, and equal, zeros of both signs being equal (R142). -/
def numLess (f : Fmt) (a b : Nat) : Prop :=
  (∃ x y, f.int a = some x ∧ f.int b = some y ∧ x < y) ∨ (f.value a = .inf true ∧ f.value b ≠ .inf true ∧ f.value b ≠ .nan) ∨
    (f.value b = .inf false ∧ f.value a ≠ .inf false ∧ f.value a ≠ .nan)
def numSame (f : Fmt) (a b : Nat) : Prop :=
  (∃ x, f.int a = some x ∧ f.int b = some x) ∨ ∃ n, f.value a = .inf n ∧ f.value b = .inf n

end Sys2Proof.Machine

open Sys2Proof Sys2Proof.Machine

/-- R115, R116: each scalar trigger that executes delivers f_T(a, b, c) mod 2^32 at SAn.q, L schedule cycles after issue,
with SAT where ADD.S or SUB.S clamps; nothing else changes. -/
def Sys2Proof.Machine.scalarResultsHold : Prop :=
  ∀ r ∈ scalarRows, Trig.fires ⟨r.port, r.ext, r.eff⟩ 0x100 0x101 fun _ _ => True

/-- R99 to R102, R143: rounding to each floating format, and the element operations of VFADD, VFSUB, VFMUL, VFMA, VFMIN and VFMAX in
FP32, BF16 and FP16. A finite
value rounds as its mode says, subnormals included, and overflows as its mode says, with NX, UF and OF; sums, differences,
products and VFMA's one sum are the exact ones, rounded once, a zero signed as R99 says; infinities are exact, an invalid operation
gives the canonical NaN with NV and NANSEEN, a NaN operand NANSEEN alone; VFMIN and VFMAX give the operand that is smaller or larger,
with -0 below +0. That a result is tiny as delivered is assumption 18. -/
def Obligations.FloatRounding : Prop :=
  (∀ f ∈ [fp32, bf16, fp16, e4m3, e5m2, e2m1], ∀ rm z, roundsDy f rm z (f.round rm z)) ∧
  (∀ f ∈ wideFmts, ∀ (rm : Rm) (a b : Nat) (x y : Dy), f.value a = .fin x → f.value b = .fin y →
    (∃ z, isSum rm x y z ∧ roundsDy f rm z (fAdd f rm a b)) ∧
    (∃ z, isSum rm x { y with neg := !y.neg } z ∧ roundsDy f rm z (fSub f rm a b)) ∧
    (∃ z, isProduct x y z ∧ roundsDy f rm z (fMul f rm a b)) ∧
    ∀ c u, f.value c = .fin u → ∃ p z, isProduct x y p ∧ isSum rm p u z ∧ roundsDy f rm z (fMa f rm a b c)) ∧
  (∀ f ∈ wideFmts, ∀ (rm : Rm) (a b : Nat), (f.value a = .nan ∨ f.value b = .nan) →
    seesNan f (fAdd f rm a b) ∧ seesNan f (fSub f rm a b) ∧ seesNan f (fMul f rm a b) ∧ seesNan f (fMinMax f false a b) ∧
      seesNan f (fMinMax f true a b) ∧ ∀ c, seesNan f (fMa f rm a b c)) ∧
  (∀ f ∈ wideFmts, ∀ (rm : Rm) (a b : Nat) (n : Bool), f.value a = .inf n →
    (∀ y, f.value b = .fin y → isInfinity f n (fAdd f rm a b) ∧ isInfinity f n (fAdd f rm b a) ∧ isInfinity f n (fSub f rm a b) ∧
      isInfinity f (!n) (fSub f rm b a) ∧
      (y.n ≠ 0 → isInfinity f (n != y.neg) (fMul f rm a b) ∧ isInfinity f (n != y.neg) (fMul f rm b a)) ∧
      (y.n = 0 → invalid f (fMul f rm a b) ∧ invalid f (fMul f rm b a) ∧
        ∀ c, invalid f (fMa f rm a b c) ∧ invalid f (fMa f rm b a c))) ∧
    (∀ m, f.value b = .inf m → isInfinity f (n != m) (fMul f rm a b) ∧
      (m = n → isInfinity f n (fAdd f rm a b) ∧ invalid f (fSub f rm a b)) ∧
      (m ≠ n → invalid f (fAdd f rm a b) ∧ isInfinity f n (fSub f rm a b)))) ∧
  (∀ f ∈ wideFmts, ∀ (rm : Rm) (a b c : Nat) (n : Bool), (Fv.mul (f.value a) (f.value b)) = (.inf n, 0) →
    (f.value c = .nan → seesNan f (fMa f rm a b c)) ∧ (f.value c = .inf (!n) → invalid f (fMa f rm a b c)) ∧
    (f.value c ≠ .nan → f.value c ≠ .inf (!n) → isInfinity f n (fMa f rm a b c))) ∧
  (∀ f ∈ wideFmts, ∀ (rm : Rm) (a b c : Nat) (x y : Dy) (n : Bool), f.value a = .fin x → f.value b = .fin y →
    (f.value c = .nan → seesNan f (fMa f rm a b c)) ∧ (f.value c = .inf n → isInfinity f n (fMa f rm a b c))) ∧
  ∀ f ∈ wideFmts, ∀ a b : Nat, f.value a ≠ .nan → f.value b ≠ .nan →
    let less := (∃ x y, f.int a = some x ∧ f.int b = some y ∧ (x < y ∨ (x = y ∧ a.testBit (f.w - 1) = true ∧ b.testBit (f.w - 1) = false))) ∨
      (f.value a = .inf true ∧ f.value b ≠ .inf true) ∨ (f.value b = .inf false ∧ f.value a ≠ .inf false)
    (less → fMinMax f false a b = (a, 0) ∧ fMinMax f false b a = (a, 0) ∧ fMinMax f true a b = (b, 0) ∧ fMinMax f true b a = (b, 0)) ∧
    (a % 2 ^ f.w = b % 2 ^ f.w → fMinMax f false a b = (a, 0) ∧ fMinMax f true a b = (a, 0))

/-- R117: each address trigger that executes delivers f_T(a, b, c) mod 2^64 at AU.q one schedule cycle after issue; nothing
else changes. -/
def Sys2Proof.Machine.addressResultsHold : Prop :=
  ∀ r ∈ addrRows, Trig.fires ⟨r.port, r.ext, r.eff⟩ 0x102 0x103 fun _ _ => True

/-- R118: PNZ pk writes hid(pk) with whether any bit of the source is set, DW where pk is already written in the phase; p1
to p14 of a user context, p1 to p3 of the handler; nothing else changes. In the handler a larger k is an illegal bundle. -/
def Sys2Proof.Machine.pnzResultsHold : Prop :=
  (∀ (w : Slot) (k : BitVec 4) (s : State), k ≠ 0 → k ≠ 15 → (s.inHandler = true → k.toNat < 4) → Runs w s →
    exec (.pnz w k) s = .next (s.setArch { s.arch with regs :=
      { s.arch.regs with p := s.arch.regs.p.put k.toNat ((s.arch.regs.getP k.toNat).land ((s.srcVal w.src).val != 0)),
                         flg := { s.arch.regs.flg with acc := s.arch.regs.flg.acc |||
                           (if (s.arch.regs.getP k.toNat).wr then Flags.dw else 0) } } })) ∧
  (∀ (w : Slot) (k : BitVec 4) (s : State), s.inHandler = true → 4 ≤ k.toNat →
    exec (.pnz w k) s = .next (s.raise Err.illegalBundle (BitVec.ofNat 64 s.frame.cur.slot)))

namespace Sys2Proof.Machine

/-! ## Moves (R70, R16, R44) -/

/-- The registers after a write has landed on one of them: DW is raised where it was already written in the phase (R44). -/
def landedOn (s : State) (was : Bool) (r : RegFile) : State :=
  s.setArch { s.arch with regs := { r with flg := { s.arch.regs.flg with
    acc := s.arch.regs.flg.acc ||| (if was then Flags.dw else 0) } } }

/-- A logical row written whole: its erring words hold no error any more (R249). -/
def rowCleared (s : State) (row : Nat) : State :=
  let r := s.core.rows
  s.setCore { s.core with rows := { r with errs := r.errs.filter fun e => decide (e.1 / 32 ≠ r.physRow row) } }
/-- A slot executes a move to a register or operand port it may write (R70, R74, R78). -/
def Moves (w : Slot) (d : BitVec 9) (s : State) : Prop :=
  Runs w s ∧ dstLegal s.inHandler s.arch.bind s.frame.cur.slot d = true

/-- The am value a move leaves: the magnitude, infinity for a NaN (R15). -/
def amValue (v : W32) : W32 := if 0x7F800000 < v.toNat % 2 ^ 31 then 0x7F800000 else BitVec.ofNat 32 (v.toNat % 2 ^ 31)

/-! ## The CTL triggers (R119 to R134) -/

/-- A relative target (R121). -/
def relTo (pc : W64) (c : W32) : W64 := BitVec.ofInt 64 ((Int.ofNat (pc.toNat / 32) + sg c / 16) * 32 + sg c % 16)
/-- A transfer: the target is the next bundle, or fails R67 (R121, R123). -/
def transfers (a : W64) (s : State) : State :=
  match s.targetError s.frame.cur.core s.frame.cur.ctx a with
  | some e => s.raise e.1 e.2
  | none => { s with frame := { s.frame with target := some a } }
/-- The low 32 and 64 bits of a value. -/
def lo32 (t : TVal) : W32 := t.val.setWidth 32
def lo64 (t : TVal) : W64 := t.val.setWidth 64
/-- CTL.x. -/
def ctlX (s : State) : W64 := lo64 (s.opnd 0x104)
/-- The link written to hid(a15) (R122). -/
def linked (s : State) : State :=
  landedOn s (s.arch.regs.getA 15).wr { s.arch.regs with a := s.arch.regs.a.put 15 ((s.arch.regs.getA 15).land s.frame.fall) }

/-- The five transfers (R122), with the contexts and header bits of R119 and R120. -/
def transferRows : List (Trig × (State → Prop)) := [
  (⟨.br, .brExt, fun t s => transfers (relTo s.frame.pc (lo32 t)) s⟩, fun _ => True),
  (⟨.bri, .briExt, fun t s => transfers (lo64 t) s⟩, fun _ => True),
  (⟨.call, .callExt, fun t s => linked (transfers (relTo s.frame.pc (lo32 t)) s)⟩,
    fun s => s.inHandler = false ∧ s.frame.hdr.f = true),
  (⟨.calli, .calliExt, fun t s => linked (transfers (lo64 t) s)⟩, fun s => s.inHandler = false ∧ s.frame.hdr.f = true),
  (⟨fun w => .ret w.gd, .retExt, fun _ s => transfers (s.arch.regs.getA 15).vis s⟩, fun s => s.inHandler = false)]

/-- LOOP with its end word (R124). -/
def loopEff (t : TVal) (s : State) : State :=
  match s.frame.rest with
  | [] => s
  | e :: rest =>
    let s1 : State := { s with frame := { s.frame with rest := rest } }
    let start := s.frame.fall
    let stop := relTo s.frame.pc (e.signExtend 32)
    let n := lo32 t
    match s1.targetError s.frame.cur.core s.frame.cur.ctx stop with
    | some x => s1.raise x.1 x.2
    | none =>
      if stop.toNat < start.toNat ∨ 2 ≤ s.arch.loops.length then s1.raise Err.loopState 0
      else if n = 0 then
        { s1 with frame := { s1.frame with target := some (s1.bundleAfter s.frame.cur.core s.frame.cur.ctx stop) } }
      else if s.arch.loops.any fun l => decide (l.stop.toNat < stop.toNat) then s1.raise Err.loopState 0
      else s1.setArch { s.arch with loops := { count := n, start := start, stop := stop } :: s.arch.loops }

/-- BAR with its step length (R130). -/
def barEff (t : TVal) (s : State) : State :=
  match s.frame.rest with
  | [] => s
  | n :: rest =>
    let s1 : State := { s with frame := { s.frame with rest := rest } }
    let g : Byte := t.val.setWidth 8
    if g = 255 ∨ s.arch.regs.getGrp 0 = g ∨ s.arch.regs.getGrp 1 = g ∨ s.arch.regs.getGrp 2 = g ∨ s.arch.regs.getGrp 3 = g then
      let s2 : State := { s1 with frame := { s1.frame with block := some (.bar g), barStep := n.toNat } }
      s2.setCtx { s.ctx with noRoll := true }
    else s1.raise Err.group (g.setWidth 64)

/-- A user context, in a bundle that flips at a safe point. -/
def blockOk (s : State) : Prop := s.inHandler = false ∧ s.frame.hdr.f = true ∧ s.frame.hdr.s = true

/-- The other CTL triggers that take no free choice, with where they may stand (R119, R120). -/
def ctlRows : List (Trig × (State → Prop)) := [
  (⟨.loop, .loopExt, loopEff⟩, fun s => s.inHandler = false ∧ s.frame.rest ≠ []),
  (⟨.lexit, .lexitExt, fun t s => transfers (relTo s.frame.pc (lo32 t)) (s.setArch { s.arch with loops := s.arch.loops.tail })⟩,
    fun s => s.inHandler = false),
  (⟨.mpcset, .mpcsetExt, fun t s =>
      { s with frame := { s.frame with newMpc := some (BitVec.ofNat 64 ((lo64 t).toNat / 4 * 4)) } }⟩,
    fun s => s.inHandler = false),
  (⟨.bar, .barExt, barEff⟩, fun s => blockOk s ∧ s.frame.rest ≠ []),
  (⟨.waitbm, .waitbmExt, fun t s =>
      { s with frame := { s.frame with block := some (.waitbm ((lo64 t).toNat % 8) (ctlX s)), barStep := 0 } }⟩, blockOk),
  (⟨.waitwp, .waitwpExt, fun t s =>
      { s with frame := { s.frame with block := some (.waitwp ((lo64 t).getLsbD 0) (ctlX s)), barStep := 0 } }⟩, blockOk),
  (⟨.trap, .trapExt, fun t s =>
      s.setArch { s.arch with trapCode := if s.arch.trapCount = 0 then t.val.setWidth 16 else s.arch.trapCode,
                              trapCount := s.arch.trapCount + 1 }⟩, fun s => s.inHandler = false),
  (⟨.eret, .eretExt, fun t s => { s with frame := { s.frame with eret := some ((lo64 t).toNat % 4, ctlX s) } }⟩,
    fun s => s.inHandler = true ∧ s.frame.hdr.f = true),
  (⟨.timerset, .timersetExt, fun t s =>
      let u := (ctlX s).toNat % 4
      let x := s.core.ctx u
      if x.status = .absent then s
      else s.setCore (s.core.setCtx u { x with timer := if lo64 t = 0 then none else some (s.pcc + (lo64 t).toNat) })⟩,
    fun s => s.inHandler = true),
  (⟨.rdsched, .rdschedExt, fun t s =>
      let i := (ctlX s).toNat % 16
      landedOn s (s.arch.regs.getS i).wr { s.arch.regs with
        s := s.arch.regs.s.put i ((s.arch.regs.getS i).land (s.schedWord ((lo64 t).toNat % 256))) }⟩,
    fun s => s.inHandler = true),
  (⟨fun w => .halt w.gd, .haltExt, fun _ s => { s with frame := { s.frame with halt := true } }⟩,
    fun s => s.inHandler = false ∧ s.frame.hdr.f = true)]

end Sys2Proof.Machine

/-- R70, R12, R14 to R16, R20, R44, R47: a move that executes writes exactly its destination: the hidden face of a register,
narrowed to its width, with DW where it was already written in the phase; nothing of p0; bits 63 and 47 to 0 of a next-tile
register; the magnitude in an am register; the clear mask of FLG; HSEL[14:0]; an mp register of the engine its context holds, else
an engine-holder error; an operand port. A user context's vector write clears the errors of the row it writes (R249), and the
phase keeps an mp register as it stood before its first write (R60). Nothing else changes. -/
def Sys2Proof.Machine.moveResultsHold : Prop :=
  ∀ (w : Slot) (d : BitVec 9) (s : State), Moves w d s →
    let v := s.srcVal w.src
    let r := s.arch.regs
    let port := s.arch.opnd.put (portKey s.frame.cur.slot d.toNat) (v.narrow (portWidth s.frame.cur.slot d.toNat))
    (d.toNat < 0x40 → exec (.move w d) s = .next (landedOn s (r.getS d.toNat).wr
      { r with s := r.s.put d.toNat ((r.getS d.toNat).land (lo32 v)) })) ∧
    (0x40 ≤ d.toNat → d.toNat < 0x50 → exec (.move w d) s = .next (landedOn s (r.getA (d.toNat - 0x40)).wr
      { r with a := r.a.put (d.toNat - 0x40) ((r.getA (d.toNat - 0x40)).land (lo64 v)) })) ∧
    (0x50 ≤ d.toNat → d.toNat < 0x70 →
      let f := r.getV (d.toNat - 0x50)
      let s1 := landedOn s f.wr { r with v := r.v.put (d.toNat - 0x50) (f.land v) }
      exec (.move w d) s = .next (if s.inHandler = true ∨ s.core.rows.errs = [] then s1
        else rowCleared s1 (64 * s.frame.cur.ctx + 2 * (d.toNat - 0x50) + (if f.sw then 0 else 1)))) ∧
    (d.toNat = 0x70 → exec (.move w d) s = .next (s.setArch s.arch)) ∧
    (0x71 ≤ d.toNat → d.toNat < 0x80 → exec (.move w d) s = .next (landedOn s (r.getP (d.toNat - 0x70)).wr
      { r with p := r.p.put (d.toNat - 0x70) ((r.getP (d.toNat - 0x70)).land (v.val.getLsbD 0)) })) ∧
    (0x80 ≤ d.toNat → d.toNat < 0x88 → exec (.move w d) s = .next (landedOn s (r.getM (d.toNat - 0x80)).wr
      { r with m := r.m.put (d.toNat - 0x80) ((r.getM (d.toNat - 0x80)).land (v.val.setWidth 256)) })) ∧
    (0x88 ≤ d.toNat → d.toNat < 0x8C → exec (.move w d) s = .next (landedOn s (r.getNt (d.toNat - 0x88)).wr
      { r with nt := r.nt.put (d.toNat - 0x88) ((r.getNt (d.toNat - 0x88)).land (BitVec.ofNat 64
        ((lo64 v).toNat / 2 ^ 63 * 2 ^ 63 + (lo64 v).toNat % 2 ^ 48))) })) ∧
    (0x8C ≤ d.toNat → d.toNat < 0x90 → exec (.move w d) s = .next (landedOn s (r.getAm (d.toNat - 0x8C)).wr
      { r with am := r.am.put (d.toNat - 0x8C) ((r.getAm (d.toNat - 0x8C)).land (amValue (lo32 v))) })) ∧
    (d.toNat = 0x9D → exec (.move w d) s = .next (s.setArch { s.arch with regs :=
      { r with flg := { r.flg with clr := r.flg.clr ||| lo32 v, wr := true } } })) ∧
    (d.toNat = 0x106 → exec (.move w d) s = .next { s with frame := { s.frame with newHsel := some (BitVec.ofNat 32 ((lo32 v).toNat % 2 ^ 15)) } }) ∧
    (0x100 ≤ d.toNat → d.toNat < 0x106 → exec (.move w d) s = .next (s.setArch { s.arch with opnd := port })) ∧
    (0x1B0 ≤ d.toNat → d.toNat < 0x1C0 →
      let e := decide (0x1B8 ≤ d.toNat)
      let g := s.core.eng e
      let f := SMap.get { vis := 0, hid := 0 } g.mp (d.toNat % 8)
      let key := (if e then 8 else 0) + d.toNat % 8
      let x := s.ctx
      let s1 := (s.setCore (s.core.setEng e { g with mp := g.mp.put (d.toNat % 8) (f.land (lo64 v)) })).setCtx
        (if (SMap.find x.mpOld key).isSome then x else { x with mpOld := x.mpOld.put key f })
      exec (.move w d) s = .next (if g.holder = BitVec.ofNat 3 s.frame.cur.ctx then landedOn s1 f.wr s1.arch.regs
        else s.raise Err.engineHolder (if e then 1 else 0)))

/-- R70, R74, R78, R85: a move that executes and may not read its source or write its destination raises an illegal bundle
on its slot and writes nothing. -/
def Sys2Proof.Machine.moveRefusedHold : Prop :=
  ∀ (w : Slot) (d : BitVec 9) (s : State), s.guard w.gd = true →
    (s.srcOk w.src && dstLegal s.inHandler s.arch.bind s.frame.cur.slot d) = false →
    exec (.move w d) s = .next (s.raise Err.illegalBundle (BitVec.ofNat 64 s.frame.cur.slot))

/-- R121, R122: BR, BRI, CALL, CALLI and RET make their target the next bundle, or raise the error R67 gives a target;
CALL and CALLI write the link to hid(a15). Nothing else changes. -/
def Sys2Proof.Machine.transferResultsHold : Prop :=
  ∀ r ∈ transferRows, Trig.fires r.1 0x104 0x105 fun _ s => r.2 s

/-- R124, R126, R127, R130 to R134, R184: what LOOP, LEXIT, MPCSET, BAR, WAITBM, WAITWP, TRAP, ERET, TIMERSET, RDSCHED and
HALT do where they may stand. Nothing else changes. -/
def Sys2Proof.Machine.controlResultsHold : Prop :=
  ∀ r ∈ ctlRows, Trig.fires r.1 0x104 0x105 fun _ s => r.2 s

namespace Sys2Proof.Machine

/-! ## Triggers that rest on a free value -/

/-- Both forms of a trigger answer the state its firing gives for some value of a free choice within its limits. -/
def firesFree (port ext : Slot → Instr) (x y : Nat) (ok : TVal → State → Prop) (lim : State → Nat → Prop)
    (eff : Nat → TVal → State → State) : Prop :=
  (∀ (w : Slot) (s : State), Runs w s → ok (s.srcVal w.src) s →
    ∃ n, lim s n ∧ exec (port w) s = .next (eff n (s.srcVal w.src) s)) ∧
  (∀ (w : Slot) (e : Word24) (rest : List Word24) (s : State), RunsExt w e rest s →
    ok (s.srcVal w.src) (armed e rest x y s) →
    ∃ n, lim s n ∧ exec (ext w) s = .next (eff n (s.srcVal w.src) (armed e rest x y s)))

/-- NTREQ with the core cycle of its landing: the request goes to the launch, for the register NTI names (R128). -/
def ntreqEff (landing : Nat) (_ : TVal) (s : State) : State :=
  let a := s.arch
  let q : NtReq := { core := s.frame.cur.core, ctx := s.frame.cur.ctx, reg := a.nti.toNat, sclk := a.sclk, arrive := s.pcc, due := landing }
  ({ s with ctr := s.ctr + 1 }.setCtx { s.ctx with cur := { a with nti := a.nti + 1 }, noRoll := true,
                                                   ntWait := s.ctx.ntWait ++ [(a.nti.toNat, a.sclk)] }).modLaunchAt
    s.frame.cur.core fun l => { l with ntq := l.ntq ++ [q] }

/-! ## Vector operations (R136 to R151) -/

/-- A vector result in flight at the slot's VA unit, with the energy of one vector operation (R136, R346). -/
def vaDone (s : State) (lat : Nat) (r : TVal) (fl : Flags) : State :=
  (s.pushResult (0x91 + s.frame.cur.slot) lat r fl).chargeHere 1 1

/-- Both forms of a vector trigger deliver a result with a property, wherever the slot executes and the inputs have the
tags the operation accepts. -/
def vaDelivers (port ext : Slot → Instr) (lat : Nat) (ok : VIn → Prop) (p : VIn → TVal → Flags → Prop) : Prop :=
  (∀ (w : Slot) (s : State), Runs w s → ok (s.vaIn (s.srcVal w.src)) →
    ∃ r fl, p (s.vaIn (s.srcVal w.src)) r fl ∧ exec (port w) s = .next (vaDone s lat r fl)) ∧
  (∀ (w : Slot) (e : Word24) (rest : List Word24) (s : State), RunsExt w e rest s →
    let a := armed e rest 0x100 0x101 s
    ok (a.vaIn (s.srcVal w.src)) →
    ∃ r fl, p (a.vaIn (s.srcVal w.src)) r fl ∧ exec (ext w) s = .next (vaDone a lat r fl))

/-- Both forms of a vector trigger whose inputs have a property raise a tag mismatch on their slot, and nothing else. -/
def vaRefuses (port ext : Slot → Instr) (bad : VIn → Prop) : Prop :=
  (∀ (w : Slot) (s : State), Runs w s → bad (s.vaIn (s.srcVal w.src)) →
    exec (port w) s = .next (s.raise Err.tagMismatch (BitVec.ofNat 64 s.frame.cur.slot))) ∧
  (∀ (w : Slot) (e : Word24) (rest : List Word24) (s : State), RunsExt w e rest s →
    let a := armed e rest 0x100 0x101 s
    bad (a.vaIn (s.srcVal w.src)) → exec (ext w) s = .next (a.raise Err.tagMismatch (BitVec.ofNat 64 s.frame.cur.slot)))

/-- Element j of a vector at width w. -/
def el (v : TVal) (w j : Nat) : Nat := elemAt v.val.toNat w j
/-- The signed reading of a code of width w. -/
def sgn (w c : Nat) : Int := if c < 2 ^ (w - 1) then Int.ofNat c else Int.ofNat c - 2 ^ w
/-- The code of an integer modulo 2^w. -/
def code (w : Nat) (z : Int) : Nat := (z % 2 ^ w).toNat
/-- An integer clamped to lo .. hi. -/
def clampIn (lo hi z : Int) : Int := max lo (min hi z)

/-- The integer tags (R97): INT32, INT16, INT8. -/
def isInt (t : Tag) : Prop := t = 8 ∨ t = 9 ∨ t = 10
/-- The floating tags (R97): FP32, BF16, FP16. -/
def isFlt (t : Tag) : Prop := t = 1 ∨ t = 2 ∨ t = 3

/-- A row of R140's operations on x and t: f on the codes at a width, and the bounds of the clamp where there is one. -/
structure VIntRow where
  port : Slot → Instr
  ext : Slot → Instr
  f : Nat → Nat → Nat → Int
  lo : Option (Nat → Int) := none
  hi : Nat → Int := fun _ => 0

def VIntRow.exact (r : VIntRow) (w a c : Nat) : Int := r.f w a c
def VIntRow.value (r : VIntRow) (w a c : Nat) : Int :=
  match r.lo with
  | none => r.f w a c
  | some lo => clampIn (lo w) (r.hi w) (r.f w a c)

/-- What such a row delivers: x's tag, each element the value modulo 2^w, SAT where an element was clamped. -/
def VIntRow.gives (r : VIntRow) (v : VIn) (q : TVal) (fl : Flags) : Prop :=
  let w := tagWidth v.x.tag
  q.tag = v.x.tag ∧
  (∀ j < 2048 / w, el q w j = code w (r.value w (el v.x w j) (el v.t w j))) ∧
  ((∃ j < 2048 / w, r.value w (el v.x w j) (el v.t w j) ≠ r.exact w (el v.x w j) (el v.t w j)) → fl = Flags.sat) ∧
  ((∀ j < 2048 / w, r.value w (el v.x w j) (el v.t w j) = r.exact w (el v.x w j) (el v.t w j)) → fl = 0)

noncomputable def vIntRows : List VIntRow := [
  ⟨.vadd, .vaddExt, fun _ a c => Int.ofNat (a + c), none, fun _ => 0⟩,
  ⟨.vsub, .vsubExt, fun _ a c => Int.ofNat a - Int.ofNat c, none, fun _ => 0⟩,
  ⟨.vaddS, .vaddSExt, fun w a c => sgn w a + sgn w c, some fun w => -2 ^ (w - 1), fun w => 2 ^ (w - 1) - 1⟩,
  ⟨.vsubS, .vsubSExt, fun w a c => sgn w a - sgn w c, some fun w => -2 ^ (w - 1), fun w => 2 ^ (w - 1) - 1⟩,
  ⟨.vadduS, .vadduSExt, fun _ a c => Int.ofNat (a + c), some fun _ => 0, fun w => 2 ^ w - 1⟩,
  ⟨.vsubuS, .vsubuSExt, fun _ a c => Int.ofNat a - Int.ofNat c, some fun _ => 0, fun w => 2 ^ w - 1⟩,
  ⟨.vmul, .vmulExt, fun _ a c => Int.ofNat (a * c), none, fun _ => 0⟩,
  ⟨.vmin, .vminExt, fun w a c => min (sgn w a) (sgn w c), none, fun _ => 0⟩,
  ⟨.vmax, .vmaxExt, fun w a c => max (sgn w a) (sgn w c), none, fun _ => 0⟩,
  ⟨.vminu, .vminuExt, fun _ a c => min (Int.ofNat a) (Int.ofNat c), none, fun _ => 0⟩,
  ⟨.vmaxu, .vmaxuExt, fun _ a c => max (Int.ofNat a) (Int.ofNat c), none, fun _ => 0⟩]

/-- R140's shifts by s = uns(t[4:0]) mod w, on the codes. -/
noncomputable def vShiftRows : List ((Slot → Instr) × (Slot → Instr) × (Nat → Nat → Nat → Int)) := [
  (.vshl, .vshlExt, fun _ a s => Int.ofNat (a * 2 ^ s)),
  (.vshr, .vshrExt, fun _ a s => Int.ofNat (a / 2 ^ s)),
  (.vsar, .vsarExt, fun w a s => sgn w a / 2 ^ s)]

/-- R141's operations on all bits. -/
noncomputable def vBitRows : List ((Slot → Instr) × (Slot → Instr) × (Bool → Bool → Bool)) := [
  (.vand, .vandExt, fun a c => a && c), (.vor, .vorExt, fun a c => a || c), (.vxor, .vxorExt, fun a c => a != c),
  (.vandn, .vandnExt, fun a c => a && !c)]

/-- R142's integer compares on the codes. -/
noncomputable def vCmpRows : List ((Slot → Instr) × (Slot → Instr) × (Nat → Nat → Nat → Bool)) := [
  (.vcmpeq, .vcmpeqExt, fun _ a c => a == c), (.vcmpne, .vcmpneExt, fun _ a c => a != c),
  (.vcmplt, .vcmpltExt, fun w a c => decide (sgn w a < sgn w c)), (.vcmple, .vcmpleExt, fun w a c => decide (sgn w a ≤ sgn w c)),
  (.vcmpltu, .vcmpltuExt, fun _ a c => decide (a < c)), (.vcmpleu, .vcmpleuExt, fun _ a c => decide (a ≤ c))]

/-- R142's floating compares on the values of two codes: a NaN makes all but VFCMPUN false. -/
noncomputable def vfCmpRows : List ((Slot → Instr) × (Slot → Instr) × (Fmt → Nat → Nat → Prop)) := [
  (.vfcmpeq, .vfcmpeqExt, numSame), (.vfcmplt, .vfcmpltExt, numLess), (.vfcmple, .vfcmpleExt, fun f a b => numLess f a b ∨ numSame f a b),
  (.vfcmpun, .vfcmpunExt, fun f a b => f.value a = .nan ∨ f.value b = .nan)]

/-- A mask delivered: 256 bits, each the truth of the element whose span holds it, above them zeros, tag NONE (R142). -/
def isMask (q : TVal) (w : Nat) (holds : Nat → Prop) : Prop :=
  q.tag = 0 ∧ q.val.toNat < 2 ^ 256 ∧ ∀ i < 256, q.val.getLsbD i = true ↔ holds (i * 8 / w)

/-- The FLG bits a list of elements raises. -/
def raisedBy (n : Nat) (g : Nat → Flags) : Flags := (List.range n).foldl (fun f j => f ||| g j) 0

/-- R143's element operations: the value delivered and the flags raised by two codes of a format. -/
noncomputable def vfRows (rm : Rm) : List ((Slot → Instr) × (Slot → Instr) × Nat × (Fmt → Nat → Nat → Nat × Flags)) := [
  (fun w => .vfadd w rm, fun w => .vfaddExt w rm, 4, fun f a c => fAdd f rm a c),
  (fun w => .vfsub w rm, fun w => .vfsubExt w rm, 4, fun f a c => fSub f rm a c),
  (fun w => .vfmul w rm, fun w => .vfmulExt w rm, 5, fun f a c => fMul f rm a c),
  (.vfmin, .vfminExt, 4, fun f a c => fMinMax f false a c),
  (.vfmax, .vfmaxExt, 4, fun f a c => fMinMax f true a c)]

/-- R144's lane operations whose element j is a function of the inputs: the tag delivered, and the element. -/
noncomputable def vLaneRows : List ((Slot → Instr) × (Slot → Instr) × (VIn → Prop) × (VIn → Tag) × (VIn → Nat → Nat)) := [
  (.vperm, .vpermExt, fun v => tagWidth v.x.tag ≠ 4, fun v => v.x.tag, fun v j =>
    let w := tagWidth v.x.tag
    el v.x w (el v.t w j % (2048 / w))),
  (.vbcast, .vbcastExt, fun _ => True, fun v => v.x.tag, fun v _ => v.t.val.toNat % 2 ^ tagWidth v.x.tag),
  (.vrot, .vrotExt, fun _ => True, fun v => v.x.tag, fun v j =>
    let w := tagWidth v.x.tag
    el v.x w ((Int.ofNat j + sgn 32 (v.t.val.toNat % 2 ^ 32)) % Int.ofNat (2048 / w)).toNat),
  (.vins, .vinsExt, fun _ => True, fun v => v.x.tag, fun v j =>
    let w := tagWidth v.x.tag
    if j = v.t.val.toNat % 2 ^ 32 % (2048 / w) then v.y.val.toNat % 2 ^ w else el v.x w j),
  (.vsel, .vselExt, fun _ => True, fun v => if v.t.tag = v.x.tag then v.x.tag else 0, fun v j =>
    let w := tagWidth v.x.tag
    if v.k.getLsbD (j * w / 8) then el v.t w j else el v.x w j),
  (.viota, .viotaExt, fun v => isInt v.x.tag, fun v => v.x.tag, fun v j =>
    (v.t.val.toNat % 2 ^ 32 + j) % 2 ^ tagWidth v.x.tag)]

/-- R145's widening of a half of t and narrowing of x and t. -/
noncomputable def vWidenRows : List ((Slot → Instr) × (Slot → Instr) × Nat) := [(.vunpkl, .vunpklExt, 0), (.vunpkh, .vunpkhExt, 1)]

/-- The element indices of x the mask keeps active (R138). -/
def lanesOn (v : VIn) : List Nat :=
  (List.range (2048 / tagWidth v.x.tag)).filter fun j => v.k.getLsbD (j * tagWidth v.x.tag / 8)

/-- A floating extreme: the canonical FP32 NaN with NANSEEN where an active element is a NaN; an infinity where none is
active; else an active element's value, which no other exceeds (R146). -/
def isExtreme (mx : Bool) (v : VIn) (q : TVal) (fl : Flags) : Prop :=
  ∀ f, fmtOf v.x.tag = some f →
    let nan := fun j => (f.value (el v.x f.w j)).isNan
    q.tag = 1 ∧
    ((lanesOn v).any nan = true → q.val.toNat = fp32.canonNan ∧ fl = Flags.nanSeen) ∧
    (lanesOn v = [] → q.val.toNat = fp32.infCode mx ∧ fl = 0) ∧
    ((lanesOn v).any nan = false → lanesOn v ≠ [] → fl = 0 ∧ ∃ j ∈ lanesOn v,
      q.val.toNat = (fp32.deliver .rne (f.value (el v.x f.w j))).1 ∧
      ∀ i ∈ lanesOn v, if mx then f.key (el v.x f.w i) ≤ f.key (el v.x f.w j) else f.key (el v.x f.w j) ≤ f.key (el v.x f.w i))

/-! ### Elements and conversions (R88 to R95, R104, R105, R111, R149 to R151) -/

/-- Element j of some bits in a format, as it decodes, and whether it is an element of a malformed N4X pair (R88 to R95). -/
def sourceOf (t : Tag) (bits j : Nat) : SrcEl × Bool :=
  if t = 7 then
    (.flt (if elemAt bits 8 j = 255 then .nan else .fin { neg := false, n := 1, e := Int.ofNat (elemAt bits 8 j) - 127 }), false)
  else if t = 12 then
    let mine := elemAt bits 4 j
    let other := elemAt bits 4 (if j % 2 = 0 then j + 1 else j - 1)
    if mine = 8 then
      if other = 8 then (.int 0, true)
      else (.int (if other < 8 then 2 ^ (1 + other % 8) else -2 ^ (1 + other % 8)), false)
    else if other = 8 then (.int 0, false)
    else (.int (sgn 4 mine), false)
  else
    match fmtOf t with
    | some f => (.flt (f.value (elemAt bits f.w j)), false)
    | none => (.int (sgn (tagWidth t) (elemAt bits (tagWidth t) j)), false)
/-- An integer as a dyadic number. -/
def dyOf (z : Int) : Dy := { neg := decide (z < 0), n := z.natAbs, e := 0 }

/-- q is the integer a mode rounds a finite value to; the value is q itself (R99, R105). -/
def isInteger (d : Dy) (q : Int) : Prop := d.at (min d.e 0) = q * 2 ^ (-min d.e 0).toNat
def roundsToInt (rm : Rm) (d : Dy) (q : Int) : Prop :=
  let x := d.at (min d.e 0)
  let one : Int := 2 ^ (-min d.e 0).toNat
  let down := q * one ≤ x ∧ x < (q + 1) * one
  let up := (q - 1) * one < x ∧ x ≤ q * one
  match rm with
  | .rne => 2 * (x - q * one).natAbs ≤ one ∧ (2 * Int.ofNat (x - q * one).natAbs = one → q % 2 = 0)
  | .rtz => if 0 ≤ x then down else up
  | .rdn => down
  | .rup => up

/-- A code and its flags are what E8M0 takes of a magnitude: the power of two not above it, clamped (R104). -/
def isPower (d : Dy) (r : Nat × Flags) : Prop :=
  if d.n = 0 then r = (0, Flags.uf ||| Flags.nx)
  else ∃ k : Int, (2 : Int) ^ (k - min k d.e).toNat ≤ Int.ofNat d.n * 2 ^ (d.e - min k d.e).toNat ∧
    Int.ofNat d.n * 2 ^ (d.e - min k d.e).toNat < 2 ^ (k + 1 - min k d.e).toNat ∧
    r = (if 127 < k then (254, Flags.of ||| Flags.nx) else if k < -127 then (0, Flags.uf ||| Flags.nx)
      else ((k + 127).toNat, if Int.ofNat d.n * 2 ^ (d.e - min k d.e).toNat = 2 ^ (k - min k d.e).toNat then 0 else Flags.nx))

/-- A code and its flags are the conversion of an element to a format in a mode, saturating or not (R104, R105, R149). -/
def isConverted (dst : Tag) (rm : Rm) (sat : Bool) (x : SrcEl) (r : Nat × Flags) : Prop :=
  let w := tagWidth dst
  let lo : Int := if dst = 12 then -7 else -2 ^ (w - 1)
  let hi : Int := if dst = 12 then 7 else 2 ^ (w - 1) - 1
  match fmtOf dst, x with
  | some f, .int z => roundsDy f rm (dyOf z) r
  | some f, .flt (.fin d) => roundsDy f rm d r
  | some f, .flt .nan => r = (if dst = 6 then (0, Flags.nv ||| Flags.nanSeen) else (f.nan.getD 0, Flags.nanSeen))
  | some f, .flt (.inf n) =>
    if dst = 4 then r = (0x7F, Flags.nv ||| Flags.nanSeen)
    else if dst = 6 then r = (if n then 15 else 7, Flags.nv)
    else isInfinity f n r
  | none, .int z =>
    if dst = 7 then isPower (dyOf z) r
    else if dst = 12 ∨ sat = true then r = (code w (clampIn lo hi z), if clampIn lo hi z = z then 0 else Flags.sat)
    else r = (code w z, 0)
  | none, .flt (.fin d) =>
    if dst = 7 then isPower d r
    else ∃ q, roundsToInt rm d q ∧ (isInteger d q ∧ clampIn lo hi q = q → r.2 = 0) ∧ (¬isInteger d q ∧ clampIn lo hi q = q → r.2 = Flags.nx) ∧
      (clampIn lo hi q ≠ q → r.2 = Flags.nv) ∧ r.1 = code w (clampIn lo hi q)
  | none, .flt .nan => r = (if dst = 7 then (255, Flags.nanSeen) else (0, Flags.nv ||| Flags.nanSeen))
  | none, .flt (.inf n) => r = (if dst = 7 then (255, Flags.nv ||| Flags.nanSeen) else (code w (if n then lo else hi), Flags.nv))

/-- Destination element e converts source element j, which is active (R149). -/
def convertsFrom (c : CvtCtl) (k : W256) (e j : Nat) : Prop :=
  let ns := 2048 / tagWidth c.sfmt
  let nd := 2048 / tagWidth c.dfmt
  j < ns ∧ (if ns ≤ nd then e = j + c.part * ns else j = e + c.part * nd) ∧ k.getLsbD (j * tagWidth c.sfmt / 8) = true
/-- A vector and its flags are a conversion's: each destination element the conversion of its source, an element of a malformed pair
raising NV alone, or y's bits (R95, R149). -/
def isConversion (c : CvtCtl) (v : VIn) (q : TVal) (fl : Flags) : Prop :=
  let w := tagWidth c.dfmt
  q.tag = c.dfmt ∧ ∃ g : Nat → Nat × Flags, (∀ e < 2048 / w, el q w e = (g e).1) ∧ fl = raisedBy (2048 / w) (fun e => (g e).2) ∧
    ∀ e < 2048 / w,
      (∀ j, convertsFrom c v.k e j → ∃ r, isConverted c.dfmt c.rm c.sat (sourceOf c.sfmt v.x.val.toNat j).1 r ∧
        g e = (r.1, if (sourceOf c.sfmt v.x.val.toNat j).2 = true then Flags.nv else r.2)) ∧
      ((∀ j, ¬convertsFrom c v.k e j) → g e = (el v.y w e, 0))
/-- mag(x) of R111 as an FP32 code. -/
def isMagnitude (x : SrcEl) (n : Nat) : Prop :=
  match x with
  | .flt .nan => False
  | .flt (.inf _) => n = 0x7F800000
  | .flt (.fin d) => ∃ fl, roundsDy fp32 .rne { d with neg := false } (n, fl)
  | .int z => ∃ fl, roundsDy fp32 .rup { neg := false, n := z.natAbs, e := 0 } (n, fl)
/-- A value and a flag are the running maximum of a conversion's source elements from m0 on (R111). -/
def isRunningMax (c : CvtCtl) (v : VIn) (m0 m : W32) (fl : Flags) : Prop :=
  let src := fun j => (sourceOf c.sfmt v.x.val.toNat j).1
  let used := fun j => ∃ e < 2048 / tagWidth c.dfmt, convertsFrom c v.k e j
  m0.toNat ≤ m.toNat ∧ (∀ j n, used j → isMagnitude (src j) n → n ≤ m.toNat) ∧
    (m = m0 ∨ ∃ j, used j ∧ isMagnitude (src j) m.toNat) ∧
    ((∃ j, used j ∧ src j = .flt .nan) → fl = Flags.nanSeen) ∧ ((∀ j, used j → src j ≠ .flt .nan) → fl = 0)
/-- What firing CVT.AMAX leaves: its result, and the am write that lands 4 schedule cycles after issue (R150). -/
def amaxEff (c : CvtCtl) (q : TVal) (fl : Flags) (m : W32) (s : State) : State :=
  let s1 := vaDone s 4 q fl
  s1.setArch { s1.arch with amPend := s1.arch.amPend ++
    [{ am := c.amn, slot := s.frame.cur.slot, issued := s.arch.sclk, due := s.arch.sclk + 4, val := m }] }
/-- CVT.AMAX's result and am value, of its inputs and vis(amAMN). -/
def isAmax (c : CvtCtl) (v : VIn) (m0 : W32) (q : TVal) (fl : Flags) (m : W32) : Prop :=
  ∃ f1 f2, isConversion c v q f1 ∧ isRunningMax c v m0 m f2 ∧ fl = f1 ||| f2
/-- The four rounds of VMIX on a lane's counter words w and key words k, as R151 writes them. -/
def mixed (w k : Nat → Nat) : List Nat :=
  let round := fun (a : Nat × Nat × Nat × Nat) (r : Nat) =>
    let p := a.1 * 0xA4C1F36B
    let q := a.2.2.1 * 0x8E3D57A9
    (q / 2 ^ 32 ^^^ a.2.1 ^^^ (k 0 + r * 0xB5297A4D) % 2 ^ 32, q % 2 ^ 32,
      p / 2 ^ 32 ^^^ a.2.2.2 ^^^ (k 1 + r * 0x68E31DA5) % 2 ^ 32, p % 2 ^ 32)
  let z := round (round (round (round (w 0, w 1, w 2, w 3) 0) 1) 2) 3
  [z.1 ^^^ k 2, z.2.1 ^^^ k 3, z.2.2.1, z.2.2.2]

/-- The special functions with their element functions (R152, R153). -/
noncomputable def sfRows : List ((Slot → Instr) × (Fmt → Nat → Nat × Flags)) := [
  (.rcp, sfRcp), (.rsq, sfRsq), (.sqrt, sfSqrt), (.exp2, sfExp2), (.log2, sfLog2), (.tanh, sfTanh), (.sigm, sfSigm), (.erf, sfErf)]

end Sys2Proof.Machine

/-- R14, R40, R128: NTREQ takes the register NTI names, advances NTI, and sends the request, which lands at most 24 core
cycles later (the landing cycle is a free choice); a ring of four, so the fifth of a phase takes the first register. -/
def Sys2Proof.Machine.ntreqResultsHold : Prop :=
  firesFree (fun w => .ntreq w.gd) .ntreqExt 0x104 0x105 (fun _ s => s.inHandler = false)
    (fun s n => s.frame.cyc0 < n ∧ n ≤ s.frame.cyc0 + 24) ntreqEff

/-- R140: each integer operation on x and t of one integer tag delivers, 2 schedule cycles later, the exact element reduced
to its width, or clamped once with SAT; nothing else changes. -/
def Obligations.VectorIntegerResults : Prop :=
  (∀ r ∈ vIntRows, vaDelivers r.port r.ext 2 (fun v => isInt v.x.tag ∧ v.t.tag = v.x.tag) r.gives) ∧
  vaDelivers .vabs .vabsExt 2 (fun v => isInt v.t.tag) (fun v q fl =>
    let w := tagWidth v.t.tag
    q.tag = v.t.tag ∧ fl = 0 ∧ ∀ j < 2048 / w, el q w j = code w (Int.ofNat (sgn w (el v.t w j)).natAbs)) ∧
  (∀ r ∈ vShiftRows, vaDelivers r.1 r.2.1 2 (fun v => isInt v.x.tag) (fun v q fl =>
    let w := tagWidth v.x.tag
    q.tag = v.x.tag ∧ fl = 0 ∧
      ∀ j < 2048 / w, el q w j = code w (r.2.2 w (el v.x w j) (v.t.val.toNat % 32 % w))))

/-- R141, R142: the bit operations over all 2,048 bits with their tag, and the compares with their masks: the floating ones compare the
values of the codes, zeros of both signs being equal and infinities at the ends of the order, and are false with a NaN but for
VFCMPUN; one that meets a NaN raises NANSEEN alone. -/
def Obligations.VectorLogicResults : Prop :=
  (∀ r ∈ vBitRows, vaDelivers r.1 r.2.1 2 (fun _ => True) (fun v q fl =>
    q.tag = (if v.x.tag = v.t.tag then v.x.tag else 0) ∧ fl = 0 ∧
      ∀ i < 2048, q.val.getLsbD i = r.2.2 (v.x.val.getLsbD i) (v.t.val.getLsbD i))) ∧
  (∀ r ∈ vCmpRows, vaDelivers r.1 r.2.1 2 (fun v => isInt v.x.tag ∧ v.t.tag = v.x.tag) (fun v q fl =>
    let w := tagWidth v.x.tag
    fl = 0 ∧ isMask q w fun j => r.2.2 w (el v.x w j) (el v.t w j) = true)) ∧
  (∀ r ∈ vfCmpRows, vaDelivers r.1 r.2.1 2 (fun v => isFlt v.x.tag ∧ v.t.tag = v.x.tag) (fun v q fl =>
    ∀ f, fmtOf v.x.tag = some f →
      fl = (if (List.range (2048 / f.w)).any fun j => (f.value (el v.x f.w j)).isNan || (f.value (el v.t f.w j)).isNan
        then Flags.nanSeen else 0) ∧
      isMask q f.w fun j => r.2.2 f (el v.x f.w j) (el v.t f.w j)))

/-- R143: each floating operation on inputs of one floating tag delivers, after its latency, element by element the result of its
element operation, with the flags all elements raise; FloatRounding ties the element operations to the exact ones and their
rounding. -/
def Obligations.VectorFloatResults : Prop :=
  (∀ (rm : Rm), ∀ r ∈ vfRows rm, vaDelivers r.1 r.2.1 r.2.2.1 (fun v => isFlt v.x.tag ∧ v.t.tag = v.x.tag) (fun v q fl =>
    ∀ f, fmtOf v.x.tag = some f →
      let g := fun j => r.2.2.2 f (el v.x f.w j) (el v.t f.w j)
      q.tag = v.x.tag ∧ (∀ j < 2048 / f.w, el q f.w j = (g j).1 % 2 ^ f.w) ∧ fl = raisedBy (2048 / f.w) fun j => (g j).2)) ∧
  (∀ (rm : Rm), vaDelivers (fun w => .vfma w rm) (fun w => .vfmaExt w rm) 5
    (fun v => isFlt v.x.tag ∧ v.t.tag = v.x.tag ∧ v.y.tag = v.x.tag) (fun v q fl =>
    ∀ f, fmtOf v.x.tag = some f →
      let g := fun j => fMa f rm (el v.x f.w j) (el v.y f.w j) (el v.t f.w j)
      q.tag = v.x.tag ∧ (∀ j < 2048 / f.w, el q f.w j = (g j).1 % 2 ^ f.w) ∧ fl = raisedBy (2048 / f.w) fun j => (g j).2))

/-- R144, R145: the lane operations element by element, with the tag each delivers; they raise no flag but VPACK.S's SAT. -/
def Obligations.VectorLaneResults : Prop :=
  (∀ r ∈ vLaneRows, vaDelivers r.1 r.2.1 2 r.2.2.1 (fun v q fl =>
    q.tag = r.2.2.2.1 v ∧ fl = 0 ∧ ∀ j < 2048 / tagWidth v.x.tag, el q (tagWidth v.x.tag) j = r.2.2.2.2 v j)) ∧
  vaDelivers .vext .vextExt 2 (fun _ => True) (fun v q fl =>
    let w := tagWidth v.x.tag
    q.tag = 0 ∧ fl = 0 ∧ q.val.toNat = el v.x w (v.t.val.toNat % 2 ^ 32 % (2048 / w))) ∧
  vaDelivers .vtag .vtagExt 2 (fun v => v.t.val.toNat % 16 < 0xD) (fun v q fl =>
    q.val = v.x.val ∧ q.tag = v.t.val.setWidth 4 ∧ fl = 0) ∧
  vaDelivers .vpack .vpackExt 2 (fun v => isInt v.x.tag ∧ v.t.tag = v.x.tag) (fun v q fl =>
    let w := tagWidth v.x.tag
    let n := 2048 / w
    q.tag = v.x.tag + 1 ∧ fl = 0 ∧ ∀ j < n, el q (w / 2) j = el v.x w j % 2 ^ (w / 2) ∧
      el q (w / 2) (n + j) = el v.t w j % 2 ^ (w / 2)) ∧
  vaDelivers .vpackS .vpackSExt 2 (fun v => isInt v.x.tag ∧ v.t.tag = v.x.tag) (fun v q fl =>
    let w := tagWidth v.x.tag
    let n := 2048 / w
    let c := fun z => clampIn (-2 ^ (w / 2 - 1)) (2 ^ (w / 2 - 1) - 1) z
    q.tag = v.x.tag + 1 ∧
      (∀ j < n, el q (w / 2) j = code (w / 2) (c (sgn w (el v.x w j))) ∧
        el q (w / 2) (n + j) = code (w / 2) (c (sgn w (el v.t w j)))) ∧
      fl = if (List.range n).any fun j => c (sgn w (el v.x w j)) != sgn w (el v.x w j) || c (sgn w (el v.t w j)) != sgn w (el v.t w j)
        then Flags.sat else 0) ∧
  (∀ r ∈ vWidenRows, vaDelivers r.1 r.2.1 2 (fun v => v.t.tag = 9 ∨ v.t.tag = 10) (fun v q fl =>
    let w := tagWidth v.t.tag
    let n := 2048 / w / 2
    q.tag = v.t.tag - 1 ∧ fl = 0 ∧ ∀ j < n, el q (2 * w) j = code (2 * w) (sgn w (el v.t w (r.2.2 * n + j)))))

/-- R146: the reductions over the active elements, 6 schedule cycles later; a floating sum of both infinities raises NV, beside a
NaN too. -/
def Obligations.VectorReductionResults : Prop :=
  vaDelivers .vradd .vraddExt 6 (fun v => isInt v.x.tag) (fun v q fl =>
    q.tag = 0 ∧ fl = 0 ∧ q.val.toNat = code 64 (((lanesOn v).map fun j => sgn (tagWidth v.x.tag) (el v.x (tagWidth v.x.tag) j)).sum)) ∧
  (∀ mx : Bool, vaDelivers (if mx then .vrmax else .vrmin) (if mx then .vrmaxExt else .vrminExt) 6 (fun v => isInt v.x.tag)
    (fun v q fl =>
      let w := tagWidth v.x.tag
      q.tag = 0 ∧ fl = 0 ∧ ∃ z : Int, q.val.toNat = code 32 z ∧
        (lanesOn v = [] → z = if mx then -2 ^ (w - 1) else 2 ^ (w - 1) - 1) ∧
        (lanesOn v ≠ [] → (∃ j ∈ lanesOn v, z = sgn w (el v.x w j)) ∧
          ∀ j ∈ lanesOn v, if mx then sgn w (el v.x w j) ≤ z else z ≤ sgn w (el v.x w j)))) ∧
  vaDelivers .vfradd .vfraddExt 6 (fun v => isFlt v.x.tag) (fun v q fl => ∀ f, fmtOf v.x.tag = some f →
    let a := ((lanesOn v).map fun j => f.value (el v.x f.w j)).foldl SumAcc.push {}
    q.tag = 1 ∧ q.val.toNat = (fp32.deliver .rne (a.value false).1).1 ∧
      fl = (if a.pinf && a.ninf then Flags.nv else 0) ||| (a.value false).2 ||| (fp32.deliver .rne (a.value false).1).2) ∧
  (∀ mx : Bool, vaDelivers (if mx then .vfrmax else .vfrmin) (if mx then .vfrmaxExt else .vfrminExt) 6 (fun v => isFlt v.x.tag)
    (isExtreme mx))

/-- R147 to R151: VDOT4.S, VMIX, CVT and CVT.AMAX. VDOT4.S adds four exact products to each accumulator and clamps once;
VMIX gives what its four rounds leave of each lane; CVT converts each selected element and takes y's bits elsewhere; CVT.AMAX also
leaves an am write that lands 4 schedule
cycles after issue, and exists in user contexts only. -/
def Sys2Proof.Machine.vectorSpecialResultsHold : Prop :=
  vaDelivers .vdot4S .vdot4SExt 5 (fun v => v.x.tag = 10 ∧ v.y.tag = 10 ∧ v.t.tag = 8) (fun v q fl =>
    let sum := fun j => sgn 32 (el v.t 32 j) + ((List.range 4).map fun i => sgn 8 (el v.x 8 (4 * j + i)) * sgn 8 (el v.y 8 (4 * j + i))).sum
    let c := fun j => clampIn (-2 ^ 31) (2 ^ 31 - 1) (sum j)
    q.tag = 8 ∧ (∀ j < 64, el q 32 j = code 32 (c j)) ∧ fl = if (List.range 64).any fun j => c j != sum j then Flags.sat else 0) ∧
  vaDelivers .vmix .vmixExt 3 (fun v => v.x.tag = 8 ∧ v.t.tag = 8) (fun v q fl =>
    q.tag = 8 ∧ fl = 0 ∧ ∀ l < 16, ∀ i < 4,
      el q 32 (4 * l + i) = (mixed (fun n => el v.x 32 (4 * l + n)) fun n => el v.t 32 (4 * l + n)).getD i 0) ∧
  vaDelivers .cvt .cvtExt 4 (fun v => (cvtCtl v.x v.t).isSome) (fun v q fl => ∀ c, cvtCtl v.x v.t = some c → isConversion c v q fl) ∧
  (∀ (w : Slot) (s : State) (c : CvtCtl), Runs w s → s.inHandler = false →
    cvtCtl (s.opnd 0x100) (s.srcVal w.src) = some c →
    ∃ q fl m, isAmax c (s.vaIn (s.srcVal w.src)) (s.arch.regs.getAm c.amn).vis q fl m ∧
      exec (.cvtAmax w) s = .next (amaxEff c q fl m s)) ∧
  (∀ (w : Slot) (e : Word24) (rest : List Word24) (s : State) (c : CvtCtl), RunsExt w e rest s → s.inHandler = false →
    let a := armed e rest 0x100 0x101 s
    cvtCtl (a.opnd 0x100) (s.srcVal w.src) = some c →
    ∃ q fl m, isAmax c (a.vaIn (s.srcVal w.src)) (a.arch.regs.getAm c.amn).vis q fl m ∧
      exec (.cvtAmaxExt w) s = .next (amaxEff c q fl m a))

/-- R98, R139, R144, R148: a vector trigger whose inputs have not the tags its operation accepts raises a tag mismatch on its slot and
delivers nothing, in both its forms: the integer and floating operations and compares, the shifts, the lanes (VPERM of 4-bit elements
and VTAG to a reserved tag), the packs and unpacks, the reductions, VDOT4.S, VMIX, and CVT and CVT.AMAX of a control word that is none. -/
def Sys2Proof.Machine.vectorTagMismatchHold : Prop :=
  let int2 := fun (v : VIn) => ¬(isInt v.x.tag ∧ v.t.tag = v.x.tag)
  let int1 := fun (v : VIn) => ¬isInt v.x.tag
  let flt2 := fun (v : VIn) => ¬(isFlt v.x.tag ∧ v.t.tag = v.x.tag)
  let flt1 := fun (v : VIn) => ¬isFlt v.x.tag
  let wide := fun (v : VIn) => ¬(v.t.tag = 9 ∨ v.t.tag = 10)
  (∀ r ∈ vIntRows, vaRefuses r.port r.ext int2) ∧ (∀ r ∈ vCmpRows, vaRefuses r.1 r.2.1 int2) ∧
  (∀ r ∈ vShiftRows, vaRefuses r.1 r.2.1 int1) ∧ vaRefuses .vabs .vabsExt (fun v => ¬isInt v.t.tag) ∧
  (∀ rm, ∀ r ∈ vfRows rm, vaRefuses r.1 r.2.1 flt2) ∧ (∀ r ∈ vfCmpRows, vaRefuses r.1 r.2.1 flt2) ∧
  (∀ rm : Rm, vaRefuses (fun w => .vfma w rm) (fun w => .vfmaExt w rm) fun v => flt2 v ∨ v.y.tag ≠ v.x.tag) ∧
  vaRefuses .vperm .vpermExt (fun v => tagWidth v.x.tag = 4) ∧ vaRefuses .viota .viotaExt int1 ∧
  vaRefuses .vtag .vtagExt (fun v => 0xD ≤ v.t.val.toNat % 16) ∧ vaRefuses .vpack .vpackExt int2 ∧
  vaRefuses .vpackS .vpackSExt int2 ∧ vaRefuses .vunpkl .vunpklExt wide ∧ vaRefuses .vunpkh .vunpkhExt wide ∧
  vaRefuses .vradd .vraddExt int1 ∧ vaRefuses .vrmax .vrmaxExt int1 ∧ vaRefuses .vrmin .vrminExt int1 ∧
  vaRefuses .vfradd .vfraddExt flt1 ∧ vaRefuses .vfrmax .vfrmaxExt flt1 ∧ vaRefuses .vfrmin .vfrminExt flt1 ∧
  vaRefuses .vdot4S .vdot4SExt (fun v => ¬(v.x.tag = 10 ∧ v.y.tag = 10 ∧ v.t.tag = 8)) ∧
  vaRefuses .vmix .vmixExt (fun v => ¬(v.x.tag = 8 ∧ v.t.tag = 8)) ∧
  vaRefuses .cvt .cvtExt (fun v => cvtCtl v.x v.t = none) ∧
  (∀ (w : Slot) (s : State), Runs w s → s.inHandler = false → cvtCtl (s.opnd 0x100) (s.srcVal w.src) = none →
    exec (.cvtAmax w) s = .next (s.raise Err.tagMismatch (BitVec.ofNat 64 s.frame.cur.slot))) ∧
  (∀ (w : Slot) (e : Word24) (rest : List Word24) (s : State), RunsExt w e rest s → s.inHandler = false →
    let a := armed e rest 0x100 0x101 s
    cvtCtl (a.opnd 0x100) (s.srcVal w.src) = none →
    exec (.cvtAmaxExt w) s = .next (a.raise Err.tagMismatch (BitVec.ofNat 64 s.frame.cur.slot)))

/-- R152, R153: a special function of a value of a floating tag delivers at SF.q, 12 schedule cycles later, each element's
result with the flags all elements raise; a value of another tag is a tag mismatch. SpecialBounds ties the element functions to
R152's bounds and R153's table. -/
def Obligations.SpecialResults : Prop :=
  ∀ r ∈ sfRows, ∀ (w : Slot) (s : State), Runs w s →
    let t := s.srcVal w.src
    (∀ f, isFlt t.tag → fmtOf t.tag = some f → ∃ q : TVal,
      q.tag = t.tag ∧ (∀ j < 2048 / f.w, el q f.w j = (r.2 f (el t f.w j)).1 % 2 ^ f.w) ∧
      exec (r.1 w) s = .next ((s.pushResult 0x95 12 q (raisedBy (2048 / f.w) fun j => (r.2 f (el t f.w j)).2)).chargeHere 2 1)) ∧
    (¬isFlt t.tag → exec (r.1 w) s = .next (s.raise Err.tagMismatch (BitVec.ofNat 64 s.frame.cur.slot)))

namespace Sys2Proof.Machine

/-! ## RECW and LEASE (R183, R185) -/

/-- RECW: N registers from hsF on, at most to hs15, after the served context's joined name, to the core's sample buffer. -/
def recwEff (t : TVal) (s : State) : State :=
  let f := (lo64 t).toNat % 16
  let n := min ((lo64 t).toNat / 16 % 16) (16 - f)
  match n, s.launch with
  | 0, _ => s
  | _, none => s
  | n, some l => s.sample s.frame.cur.core ((lo64 t).toNat / 256 % 256)
      (contextName l s.core s.frame.cur.core (s.core.svc.served.getD 0) ++
        (List.range n).flatMap fun i => leBytes 4 (s.arch.regs.getS (f + i)).vis.toNat)

/-- A context waits for an answer, and the phase may not be rolled back (R60, R166). -/
def asked (w : AnswerWait) (s : State) : State := s.setCtx { s.ctx with answers := s.ctx.answers ++ [w], noRoll := true }
/-- The same for an answer with a code, which takes an issue sequence number (R46). -/
def askedSeq (w : AnswerWait) (s : State) : State :=
  asked { w with seq := s.core.seq } (s.setCore { s.core with seq := s.core.seq + 1 })

/-- LEASE's operands: reserved bits zero, k from 1 to 14, a duration from 1 to 2^40 cycles of a request (R183). -/
def leaseOk (t : TVal) (s : State) : Prop :=
  let c := (lo64 t).toNat
  let k := c / 16 % 16
  c / 256 = 0 ∧ c / 2 % 8 = 0 ∧ k ≠ 0 ∧ k ≠ 15 ∧ (c % 2 = 1 → 0 < (ctlX s).toNat ∧ (ctlX s).toNat ≤ 2 ^ 40)
/-- LEASE: a request waits for the planner's answer; a return ends the lease its context holds and writes 0 to pk. -/
def leaseEff (t : TVal) (s : State) : State :=
  let c := (lo64 t).toNat
  let k := c / 16 % 16
  if c % 2 = 1 then
    asked { kind := 2, pk := k, slot := s.frame.cur.slot, issued := s.arch.sclk, code := 0, arg := (ctlX s).toNat, due := s.pcc + 6000 } s
  else
    let s1 := if (s.core.lease.map (·.ctx)) = some s.frame.cur.ctx then s.endLease s.frame.cur.core true false else s
    (landedOn s1 (s1.arch.regs.getP k).wr { s1.arch.regs with p := s1.arch.regs.p.put k ((s1.arch.regs.getP k).land false) }).noRoll

/-! ## The scratch (R155 to R164) -/

/-- LSn.x, LSn.y, LSn.k, and the address a trigger names (R155, R156). -/
def lsxOf (s : State) : W2048 := (s.opnd 0x100).val
def lsyOf (s : State) : W64 := lo64 (s.opnd 0x101)
def lskOf (s : State) : W256 := (s.opnd 0x102).val.setWidth 256
def at_ (t : TVal) : Nat := (lo32 t).toNat
/-- A range of n bytes lies in the scratch at its alignment (R156). -/
def inScratch (s : State) (a n al : Nat) : Prop := a + n ≤ 2048 * ppwScr s.core.rows.ppw ∧ a % al = 0

/-- An access of the bundle in progress, queued for a core cycle (R157). -/
def accessAt (due : Nat) (kind : AccessKind) (s : State) : Access :=
  { due := due, ctx := s.frame.cur.ctx, slot := s.frame.cur.slot, pc := s.frame.pc, sclk := s.arch.sclk, kind := kind }
/-- The state with an access queued. -/
def queued (due : Nat) (kind : AccessKind) (s : State) : State :=
  s.setCore { s.core with accs := s.core.accs ++ [accessAt due kind s] }
/-- The same for an access that takes an issue sequence number, which orders its delivery. -/
def queuedSeq (due : Nat) (kind : Nat → AccessKind) (s : State) : State :=
  s.setCore { s.core with seq := s.core.seq + 1, accs := s.core.accs ++ [accessAt due (kind s.core.seq) s] }

/-- A load reads in the core cycle after its first sub-bundle and delivers at LSn.q 3 schedule cycles after issue (R157). -/
def loads (addrs : List Nat) (bytes : Nat) (sext : Bool) (tag : Tag) (s : State) : State :=
  queuedSeq (s.frame.cyc0 + 1) (.load addrs bytes sext tag (0x92 + s.frame.cur.slot) (s.arch.sclk + 3)) s
/-- A store writes in the second core cycle after its last sub-bundle (R157) and forbids a rollback (R60). -/
def stores (a : Nat) (bytes : List (Option Byte)) (kind : Nat) (s : State) : State :=
  (queued (s.frame.cyc1 + 2) (.store a bytes kind) s).noRoll

/-- Byte i of a wide value. -/
def byteOf (x : W2048) (i : Nat) : Byte := BitVec.ofNat 8 (x.toNat / 2 ^ (8 * i))

/-- VLDS's element width, stride and element addresses (R160). -/
def vldsWidth (s : State) : Nat := if (lsxOf s).setWidth 4 = (0 : Tag) then 32 else tagWidth ((lsxOf s).setWidth 4)
def vldsAddr (t : TVal) (s : State) (j : Nat) : Int :=
  Int.ofNat (at_ t) + Int.ofNat j * ((lsxOf s).extractLsb' 32 32).toInt

/-- The loads (R159, R160), with what their operands must meet. -/
noncomputable def loadRows : List (Trig × (TVal → State → Prop)) := [
  (⟨.ldB, .ldBExt, fun t => loads [at_ t] 1 true 0⟩, fun t s => inScratch s (at_ t) 1 1),
  (⟨.ldBu, .ldBuExt, fun t => loads [at_ t] 1 false 0⟩, fun t s => inScratch s (at_ t) 1 1),
  (⟨.ldH, .ldHExt, fun t => loads [at_ t] 2 true 0⟩, fun t s => inScratch s (at_ t) 2 2),
  (⟨.ldHu, .ldHuExt, fun t => loads [at_ t] 2 false 0⟩, fun t s => inScratch s (at_ t) 2 2),
  (⟨.ldW, .ldWExt, fun t => loads [at_ t] 4 false 0⟩, fun t s => inScratch s (at_ t) 4 4),
  (⟨.vld, .vldExt, fun t s => loads [at_ t] 256 false ((lsxOf s).setWidth 4) s⟩,
    fun t s => (lsxOf s).toNat % 16 < 13 ∧ inScratch s (at_ t) 256 8),
  (⟨.vlds, .vldsExt, fun t s => loads ((List.range (2048 / vldsWidth s)).map fun j => (vldsAddr t s j).toNat) (vldsWidth s / 8)
      false ((lsxOf s).setWidth 4) s⟩,
    fun t s => (lsxOf s).toNat % 16 < 13 ∧ vldsWidth s ≠ 4 ∧ (lsxOf s).toNat / 16 % 2 ^ 28 = 0 ∧ (lsxOf s).toNat < 2 ^ 64 ∧
      ∀ j < 2048 / vldsWidth s, 0 ≤ vldsAddr t s j ∧
        inScratch s (vldsAddr t s j).toNat (vldsWidth s / 8) (vldsWidth s / 8))]

/-- The stores and FILL (R159, R162), with what their operands must meet. -/
noncomputable def storeRows : List (Trig × (TVal → State → Prop)) :=
  let st := fun n kind (t : TVal) (s : State) => stores (at_ t) ((List.range n).map fun i => some (byteOf (lsxOf s) i)) kind s
  [(⟨.stB, .stBExt, st 1 0⟩, fun t s => inScratch s (at_ t) 1 1),
   (⟨.stH, .stHExt, st 2 1⟩, fun t s => inScratch s (at_ t) 2 2),
   (⟨.stW, .stWExt, st 4 2⟩, fun t s => inScratch s (at_ t) 4 4),
   (⟨.stD, .stDExt, st 8 3⟩, fun t s => inScratch s (at_ t) 8 8),
   (⟨.vst, .vstExt, st 256 4⟩, fun t s => inScratch s (at_ t) 256 8),
   (⟨.vstm, .vstmExt, fun t s => stores (at_ t) ((List.range 256).map fun i =>
       if (lskOf s).getLsbD i then some (byteOf (lsxOf s) i) else none) 5 s⟩, fun t s => inScratch s (at_ t) 256 8),
   (⟨.fill, .fillExt, fun t s => stores (at_ t) ((List.range (lsyOf s).toNat).map fun i => some (byteOf (lsxOf s) (i % 8))) 6 s⟩,
     fun t s => (lsyOf s).toNat % 8 = 0 ∧ 8 ≤ (lsyOf s).toNat ∧ (lsyOf s).toNat ≤ 256 ∧ inScratch s (at_ t) (lsyOf s).toNat 8)]

/-- The atomics: the two forms, the operation's number in a queued access, and the word written, if one is (R161). -/
structure AtRow where
  port : Slot → Instr
  ext : Slot → Instr
  op : Nat
  f : W32 → W32 → W32 → Option Int

noncomputable def atRows : List AtRow := [
  ⟨.atadd, .ataddExt, 0, fun old x _ => some (un old + un x)⟩,
  ⟨.atmin, .atminExt, 1, fun old x _ => some (min (sg old) (sg x))⟩,
  ⟨.atmax, .atmaxExt, 2, fun old x _ => some (max (sg old) (sg x))⟩,
  ⟨.atminu, .atminuExt, 3, fun old x _ => some (min (un old) (un x))⟩,
  ⟨.atmaxu, .atmaxuExt, 4, fun old x _ => some (max (un old) (un x))⟩,
  ⟨.atand, .atandExt, 5, fun old x _ => some (Int.ofNat (old.toNat &&& x.toNat))⟩,
  ⟨.ator, .atorExt, 6, fun old x _ => some (Int.ofNat (old.toNat ||| x.toNat))⟩,
  ⟨.atswp, .atswpExt, 7, fun _ x _ => some (un x)⟩,
  ⟨.atcas, .atcasExt, 8, fun old x y => if old = y then some (un x) else none⟩]

/-- An atomic performs as a store and delivers the old word at LSn.q 4 schedule cycles after issue (R161). -/
def AtRow.eff (r : AtRow) (t : TVal) (s : State) : State :=
  (queuedSeq (s.frame.cyc1 + 2) (.atomic (at_ t) r.op ((lsxOf s).setWidth 32) ((lsyOf s).setWidth 32) (0x92 + s.frame.cur.slot)
    (s.arch.sclk + 4)) s).noRoll

/-- LDSC's operands: engine c[0], first code c[15:8], N - 1 in c[21:16] (R163). -/
def ldscEng (t : TVal) : Bool := (lo64 t).getLsbD 0
def ldscFirst (t : TVal) : Nat := (lo64 t).toNat / 2 ^ 8 % 256
def ldscCount (t : TVal) : Nat := (lo64 t).toNat / 2 ^ 16 % 64 + 1
def ldscOk (t : TVal) (s : State) : Prop :=
  let tag := (s.opnd 0x100).tag
  let g := s.core.eng (ldscEng t)
  (tag = 4 ∨ tag = 5 ∨ tag = 7) ∧ (lo64 t).toNat / 2 ^ 22 = 0 ∧ (lo64 t).toNat / 2 % 2 ^ 7 = 0 ∧
    ldscFirst t + ldscCount t ≤ 256 ∧ g.holder = BitVec.ofNat 3 s.frame.cur.ctx ∧
    g.saffron.length + g.outLdsc + ldscCount t ≤ 64
def ldscEff (t : TVal) (s : State) : State :=
  let e := ldscEng t
  let g := s.core.eng e
  let k := s.core.setEng e { g with outLdsc := g.outLdsc + ldscCount t }
  let l := (List.range (ldscCount t)).map fun j => ((s.opnd 0x100).tag, byteOf (lsxOf s) (ldscFirst t + j))
  (s.setCore { k with accs := s.core.accs ++ [accessAt (s.frame.cyc1 + 2) (.ldsc e l) s] }).noRoll

/-- WPSET's operands: watchpoint y[1:0], mode y[3:2], the aligned word (R164). -/
def wpsetOk (t : TVal) (s : State) : Prop :=
  inScratch s (at_ t) 8 8 ∧ (lsyOf s).toNat / 4 % 4 ≠ 3 ∧ (lsyOf s).toNat / 16 = 0
def wpsetEff (t : TVal) (s : State) : State :=
  (queued (s.frame.cyc1 + 2) (.wpset ((lsyOf s).toNat % 4) ((lsyOf s).toNat / 4 % 4) (at_ t) ((lsxOf s).setWidth 64)
    ((lsxOf s).extractLsb' 64 64)) s).noRoll

/-- The errors of a range outside the scratch or off its alignment (R156). -/
def scratchErrors (s : State) (a n al : Nat) : List (Nat × W64) :=
  (if 2048 * ppwScr s.core.rows.ppw < a + n then [(0x0B, BitVec.ofNat 64 a)] else []) ++
    (if a % al = 0 then [] else [(0x0C, BitVec.ofNat 64 a)])
/-- The first of a list of addresses at which n bytes leave the scratch, and the first that is off its alignment (R156, R160). -/
def gatherErrors (s : State) (l : List Int) (n : Nat) : List (Nat × W64) :=
  ((l.find? fun a => decide (a < 0 ∨ Int.ofNat (2048 * ppwScr s.core.rows.ppw) < a + n)).map fun a => (0x0B, BitVec.ofInt 64 a)).toList ++
    ((l.find? fun a => decide (a % Int.ofNat n ≠ 0)).map fun a => (0x0C, BitVec.ofInt 64 a)).toList
/-- An error of the slot where a condition fails: 0x08 a tag mismatch, 0x0D an operand error. -/
def slotError (s : State) (n : Nat) (ok : Bool) : List (Nat × W64) := if ok then [] else [(n, BitVec.ofNat 64 s.frame.cur.slot)]
/-- An error of an engine where a condition fails. -/
def engineError (e : Bool) (n : Nat) (ok : Bool) : List (Nat × W64) := if ok then [] else [(n, if e then 1 else 0)]

/-- The triggers of one range with its length and alignment. -/
noncomputable def rangeRows : List ((Slot → Instr) × (Slot → Instr) × Nat × Nat) := [
  (.ldB, .ldBExt, 1, 1), (.ldBu, .ldBuExt, 1, 1), (.ldH, .ldHExt, 2, 2), (.ldHu, .ldHuExt, 2, 2), (.ldW, .ldWExt, 4, 4),
  (.stB, .stBExt, 1, 1), (.stH, .stHExt, 2, 2), (.stW, .stWExt, 4, 4), (.stD, .stDExt, 8, 8), (.vst, .vstExt, 256, 8),
  (.vstm, .vstmExt, 256, 8), (.atadd, .ataddExt, 4, 4), (.atmin, .atminExt, 4, 4), (.atmax, .atmaxExt, 4, 4),
  (.atminu, .atminuExt, 4, 4), (.atmaxu, .atmaxuExt, 4, 4), (.atand, .atandExt, 4, 4), (.ator, .atorExt, 4, 4),
  (.atswp, .atswpExt, 4, 4), (.atcas, .atcasExt, 4, 4)]
/-- The triggers of the scratch with further operands, and their errors (R159, R160, R162 to R164). -/
noncomputable def scratchRows : List ((Slot → Instr) × (Slot → Instr) × (TVal → State → List (Nat × W64))) := [
  (.vld, .vldExt, fun t s => slotError s 0x08 (decide ((lsxOf s).toNat % 16 < 13)) ++ scratchErrors s (at_ t) 256 8),
  (.vlds, .vldsExt, fun t s =>
    let legal := decide ((lsxOf s).toNat % 16 < 13)
    slotError s 0x08 legal ++
      slotError s 0x0D (decide ((legal = true → vldsWidth s ≠ 4) ∧ (lsxOf s).toNat / 16 % 2 ^ 28 = 0 ∧ (lsxOf s).toNat < 2 ^ 64)) ++
      if legal = true ∧ vldsWidth s ≠ 4 then gatherErrors s ((List.range (2048 / vldsWidth s)).map (vldsAddr t s)) (vldsWidth s / 8) else []),
  (.fill, .fillExt, fun t s =>
    let n := (lsyOf s).toNat
    slotError s 0x0D (decide (n % 8 = 0 ∧ 8 ≤ n ∧ n ≤ 256)) ++ scratchErrors s (at_ t) n 8),
  (.ldsc, .ldscExt, fun t s =>
    let tag := (s.opnd 0x100).tag
    let g := s.core.eng (ldscEng t)
    slotError s 0x08 (decide (tag = 4 ∨ tag = 5 ∨ tag = 7)) ++
      slotError s 0x0D (decide ((lo64 t).toNat / 2 ^ 22 = 0 ∧ (lo64 t).toNat / 2 % 2 ^ 7 = 0 ∧ ldscFirst t + ldscCount t ≤ 256)) ++
      engineError (ldscEng t) 0x0E (decide (g.holder = BitVec.ofNat 3 s.frame.cur.ctx)) ++
      engineError (ldscEng t) 0x15 (decide (g.saffron.length + g.outLdsc + ldscCount t ≤ 64))),
  (.wpset, .wpsetExt, fun t s =>
    scratchErrors s (at_ t) 8 8 ++ slotError s 0x0D (decide ((lsyOf s).toNat / 4 % 4 ≠ 3 ∧ (lsyOf s).toNat / 16 = 0)))]
/-- Both forms of a trigger of LS whose errors are some raise them and do nothing else. -/
def lsRefuses (port ext : Slot → Instr) (errs : TVal → State → List (Nat × W64)) : Prop :=
  Trig.fires ⟨port, ext, fun t s => { s with frame := { s.frame with raised := s.frame.raised ++ errs t s } }⟩ 0x100 0x101
    fun t s => errs t s ≠ []

/-- A bundle with F and W, which PROBE and EVAC need (R166). -/
def asks (s : State) : Prop := s.frame.hdr.f = true ∧ s.frame.hdr.w = true
/-- PROBE's operands: length - 1 in x[19:0], access x[20], pk x[27:24] (R167). -/
def probeOk (s : State) : Prop :=
  let k := (lsxOf s).toNat / 2 ^ 24 % 16
  asks s ∧ (lsxOf s).toNat / 2 ^ 21 % 8 = 0 ∧ (lsxOf s).toNat / 2 ^ 28 = 0 ∧ k ≠ 0 ∧ k ≠ 15
def probeEff (due : Nat) (t : TVal) (s : State) : State :=
  askedSeq { kind := 0, pk := (lsxOf s).toNat / 2 ^ 24 % 16, slot := s.frame.cur.slot, issued := s.arch.sclk, code := 0,
             arg := (lo64 t).toNat * 2 ^ 21 + (lsxOf s).toNat % 2 ^ 21, due := due } { s with ctr := s.ctr + 1 }
/-- EVAC's operands: the point c[2:0], pk x[3:0] (R168). -/
def evacOk (t : TVal) (s : State) : Prop :=
  asks s ∧ (lo64 t).toNat < 8 ∧ (lsxOf s).toNat < 15 ∧ (lsxOf s).toNat ≠ 0
/-- EVAC: code 2 where an engine is Busy, one that an MCALL of the same bundle takes included, or a communication step runs, 0 where the spares suffice, else 1; the answer lands
16 + 2|D| + 128|DL| core cycles on with code 0, else 16; the core issues nothing meanwhile (R168). -/
def evacEff (t : TVal) (s : State) : State :=
  let k := s.core
  let p := k.rows.evacPlan (lo64 t).toNat
  let code := if (k.me0.busy || k.me1.busy || s.inStep s.frame.cur.core || s.frame.calls) = true then 2
    else if p.d.length ≤ p.p.length ∧ p.dl.length ≤ p.pl.length then 0 else 1
  let at1 := s.frame.cyc0 + (if code = 0 then 16 + 2 * p.d.length + 128 * p.dl.length else 16)
  let s1 := askedSeq { kind := 1, pk := (lsxOf s).toNat, slot := s.frame.cur.slot, issued := s.arch.sclk, code := code,
                       arg := (lo64 t).toNat, due := at1 } s
  s1.setCore { s1.core with hold := max k.hold at1 }

/-! ## Accesses performed (R157, R158, R161) -/

/-- The cursor's core has one access due, of a kind, and no erring word. -/
def oneDue (s : State) (x : Access) : Prop := s.core.accs = [x] ∧ x.due ≤ s.core.cyc ∧ s.core.rows.errs = []

/-- What performing one access leaves as it was: the PCC, main memory, the launches, every other core, and of the core all
but what is named here. -/
def performFrame (s t : State) : Prop :=
  let c := s.frame.cur.core
  t.pcc = s.pcc ∧ t.mem = s.mem ∧ t.launches = s.launches ∧ t.tx = s.tx ∧ t.prq = s.prq ∧ t.dumps = s.dumps ∧ t.irqs = s.irqs ∧
    t.todo = s.todo ∧ t.inbox = s.inbox ∧ t.frame = s.frame ∧ t.ctr = s.ctr ∧
    (∀ n, n ≠ c → t.coreAt n = s.coreAt n) ∧ t.core.cyc = s.core.cyc ∧ t.core.larder = s.core.larder ∧ t.core.accs = [] ∧
    t.core.me0 = s.core.me0 ∧ t.core.me1 = s.core.me1 ∧ t.core.ce = s.core.ce ∧ t.core.pwr = s.core.pwr ∧
    t.core.lease = s.core.lease ∧ t.core.rows = s.core.rows ∧ t.core.launch = s.core.launch ∧ t.core.svc = s.core.svc ∧
    t.core.issuing = s.core.issuing ∧ t.core.hold = s.core.hold ∧ t.core.stall = s.core.stall ∧ t.core.last = s.core.last ∧ t.core.seq = s.core.seq ∧ t.core.marks = s.core.marks ∧
    t.core.before = s.core.before

/-- A result in flight at its context, as R45 keeps one; the context's other state stays. -/
def inFlightAt (s t : State) (x : Access) (r : InFlight) : Prop :=
  let y := s.core.ctx x.ctx
  (∀ c, c ≠ x.ctx → t.core.ctx c = s.core.ctx c) ∧
    (y.saved = false → y.start.sclk.toNat ≤ x.sclk.toNat →
      t.core.ctx x.ctx = { y with cur := { y.cur with pipe := y.cur.pipe ++ [r] } })

end Sys2Proof.Machine

/-- R183, R185: RECW of the handler writes its record; LEASE with its operands in order asks for a lease, or returns the one
its context holds and writes 0 to pk. Nothing else changes. That a return by a context
other than the holder leaves the core's lease is assumption 31. -/
def Obligations.RecordAndLeaseResults : Prop :=
  Trig.fires ⟨.recw, .recwExt, recwEff⟩ 0x104 0x105 (fun _ s => s.inHandler = true) ∧
  Trig.fires ⟨.lease, .leaseExt, leaseEff⟩ 0x104 0x105 (fun t s => s.inHandler = false ∧ asks s ∧ leaseOk t s)

/-- R157, R159, R160: each load whose range lies in the scratch at its alignment is queued for the core cycle after its
bundle, to deliver at LSn.q 3 schedule cycles after issue; nothing else changes. -/
def Sys2Proof.Machine.loadResultsHold : Prop := ∀ r ∈ loadRows, Trig.fires r.1 0x100 0x101 r.2

/-- R157, R159, R162: each store, VSTM and FILL whose range lies in the scratch at its alignment is queued with its bytes for
the second core cycle after its bundle; nothing else changes. -/
def Sys2Proof.Machine.storeResultsHold : Prop := ∀ r ∈ storeRows, Trig.fires r.1 0x100 0x101 r.2

/-- R161: each atomic on an aligned word of the scratch is queued as a store is, to deliver the old word 4 schedule cycles
after issue; nothing else changes. -/
def Sys2Proof.Machine.atomicResultsHold : Prop :=
  ∀ r ∈ atRows, Trig.fires ⟨r.port, r.ext, r.eff⟩ 0x100 0x101 fun t s => inScratch s (at_ t) 4 4

/-- R163, R164: LDSC counts its N entries as outstanding and queues them for its store cycle; WPSET queues its watchpoint for
its store cycle; nothing else changes. -/
def Sys2Proof.Machine.scaleAndWatchpointResultsHold : Prop :=
  Trig.fires ⟨.ldsc, .ldscExt, ldscEff⟩ 0x100 0x101 ldscOk ∧ Trig.fires ⟨.wpset, .wpsetExt, wpsetEff⟩ 0x100 0x101 wpsetOk

/-- R156, R159, R160, R162 to R164, R320, R321: a scratch access, in either form, whose range ends past the scratch raises
scratch-bounds, one off its alignment raises alignment, each with the address as its detail, and queues nothing. A tag mismatch of
VLD, VLDS or LDSC and an operand error of VLDS, FILL, LDSC or WPSET, on the slot, are raised beside them, and so are LDSC's errors of
its engine: another holder, and more than 64 scales. Of VLDS's addresses the first outside and the first off its alignment are named
(assumption 96), where its format gives its elements whole bytes. -/
def Obligations.ScratchErrors : Prop :=
  (∀ r ∈ rangeRows, lsRefuses r.1 r.2.1 fun t s => scratchErrors s (at_ t) r.2.2.1 r.2.2.2) ∧ ∀ r ∈ scratchRows, lsRefuses r.1 r.2.1 r.2.2

/-- R166 to R168: PROBE and EVAC with their operands in order, in a bundle with F and W, wait for their answers; EVAC's code
is derived at issue and it holds the core; the cycle of PROBE's answer is a free choice. Nothing else changes. That the handler's k of 4 to 14
is no operand error is assumption 50, and that the core is held from EVAC's issue, with the moves at its answer, assumption 34. -/
def Obligations.ProbeAndEvacResults : Prop :=
  firesFree .probe .probeExt 0x100 0x101 (fun _ s => probeOk s) (fun s n => s.frame.cyc0 < n) probeEff ∧
  Trig.fires ⟨.evac, .evacExt, evacEff⟩ 0x100 0x101 evacOk

/-- R157, R159, R160: a load performed puts the little-endian value of its bytes in flight to its port, sign-extended to 32
bits where it is a signed load, with its tag; it writes nothing. -/
def Sys2Proof.Machine.loadPerformsHold : Prop :=
  ∀ (s : State) (x : Access) (addrs : List Nat) (bytes : Nat) (sext : Bool) (tag : Tag) (port : Nat) (due : W64) (seq : Nat),
    oneDue s x → x.kind = .load addrs bytes sext tag port due seq → (sext = true → addrs.length = 1 ∧ 0 < bytes ∧ bytes ≤ 4) →
    addrs.length * bytes ≤ 256 →
    ∃ (t : State) (v : TVal), exec .scratchAccessPerform s = .next t ∧ performFrame s t ∧
      t.core.scratch = s.core.scratch ∧ t.core.wps = s.core.wps ∧ t.core.tr = s.core.tr ∧ v.tag = tag ∧
      (let n := leNat (addrs.flatMap fun a => (List.range bytes).map fun i => s.core.scratch.read (a + i))
       v.val.toNat = if sext then code 32 (sgn (8 * bytes) n) else n) ∧
      inFlightAt s t x { seq := seq, port := port, due := due, res := v, flags := 0 }

/-- R157, R159, R162: a store performed writes its bytes from its address on, those masked off left; every other byte of the
scratch reads as before. -/
def Sys2Proof.Machine.storePerformsHold : Prop :=
  ∀ (s : State) (x : Access) (a : Nat) (bs : List (Option Byte)) (kind : Nat),
    oneDue s x → x.kind = .store a bs kind →
    ∃ t : State, exec .scratchAccessPerform s = .next t ∧ performFrame s t ∧ (∀ c, t.core.ctx c = s.core.ctx c) ∧
      (∀ i b, bs[i]? = some (some b) → t.core.scratch.read (a + i) = b) ∧
      (∀ i, bs[i]? = some none → t.core.scratch.read (a + i) = s.core.scratch.read (a + i)) ∧
      (∀ n, n < a ∨ a + bs.length ≤ n → t.core.scratch.read n = s.core.scratch.read n)

/-- R161: an atomic performed writes the word its operation gives of the old word and its operands, none where a
compare fails, and puts the old word in flight; every other byte of the scratch reads as before. -/
def Sys2Proof.Machine.atomicPerformsHold : Prop :=
  ∀ r ∈ atRows, ∀ (s : State) (x : Access) (a : Nat) (u v : W32) (port : Nat) (due : W64) (seq : Nat),
    oneDue s x → x.kind = .atomic a r.op u v port due seq →
    ∃ t : State, exec .scratchAccessPerform s = .next t ∧ performFrame s t ∧
      (let old := BitVec.ofNat 32 (s.core.scratch.readLe a 4)
       t.core.scratch.readLe a 4 = (match r.f old u v with | some z => (z % 2 ^ 32).toNat | none => old.toNat) ∧
       inFlightAt s t x { seq := seq, port := port, due := due, res := plain old.toNat, flags := 0 }) ∧
      (∀ n, n < a ∨ a + 4 ≤ n → t.core.scratch.read n = s.core.scratch.read n)

namespace Sys2Proof.Machine

/-! ## The copy engine's triggers (R169 to R182) -/

/-- CE.x and CE.y, and a field of a word. -/
def cexOf (s : State) : Nat := (lo64 (s.opnd 0x100)).toNat
def ceyOf (s : State) : Nat := (lo64 (s.opnd 0x101)).toNat
def bits (v lo n : Nat) : Nat := v / 2 ^ lo % 2 ^ n

/-- An accepted command's record of TYPE 5 (R329); the phase may not be rolled back (R60). -/
def told (id : Nat) (s : State) : State := (s.trace 5 (id % 256 + 256 * (cexOf s % 2 ^ 32))).noRoll

/-- Both forms of a trigger of CE answer the state its effect and its record give; the extended form's ID is 0x50 more. -/
def ceFires (port ext : Slot → Instr) (id : Nat) (eff : TVal → State → State) (ok : TVal → State → Prop) : Prop :=
  (∀ (w : Slot) (s : State), Runs w s → ok (s.srcVal w.src) s →
    exec (port w) s = .next (told id (eff (s.srcVal w.src) s))) ∧
  (∀ (w : Slot) (e : Word24) (rest : List Word24) (s : State), RunsExt w e rest s →
    ok (s.srcVal w.src) (armed e rest 0x100 0x101 s) →
    exec (ext w) s = .next (told (id + 0x50) (eff (s.srcVal w.src) (armed e rest 0x100 0x101 s))))

/-- The cursor's core with its copy engine changed. -/
def ceSet (s : State) (e : CopyEngine) : State := s.setCore { s.core with ce := e }
/-- CHK of the launch (R172, R285). -/
def chkOf (s : State) : Bool := (s.launch.map fun l => l.lr.ctrl.getLsbD 4).getD false

/-- CPY's record, as read in its source cycle (R170, R173). -/
def cpyRec (s : State) : ShapeRec := readShape (s.seenScratch.readBytes (ceyOf s % 2 ^ 32) 64)
/-- What CPY's operands and record must meet (R156, R170 to R173, R177). -/
def cpyOk (s : State) : Prop :=
  let r := cpyRec s
  let a := cexOf s % 2 ^ 32
  let bytes := s.seenScratch.readBytes (ceyOf s) 64
  ceyOf s < 2 ^ 32 ∧ inScratch s (ceyOf s) 64 64 ∧ s.seenRows.readLoss (ceyOf s) 64 = none ∧ bits (cexOf s) 42 22 = 0 ∧
    (s.core.ce.buf.filter fun c => c.ctx == s.frame.cur.ctx).length < 16 ∧ r.ok = true ∧ shapeReserved bytes = true ∧
    (r.bits = 4 → r.ext0 % 2 = 0 ∧ r.tx * r.ext0 % 2 = 0) ∧ inScratch s a r.size 8 ∧
    bits (cexOf s) 35 6 + (r.size + 511) / 512 ≤ 64 ∧
    (r.dec = true → bits (cexOf s) 41 1 = 0 ∧ (SMap.find s.core.ce.tables r.dti).isSome = true) ∧
    (chkOf s = true → r.permit = false → r.outside = false)
/-- A read of scratch bytes corrects the single-bit errors of their words (R249). -/
def scratchRead (s : State) (a n : Nat) : State := s.setCore { s.core with rows := s.core.rows.fixBytes a n }
/-- CPY queues one transfer: S x[31:0], B x[34:32], first chunk x[40:35], direction x[41], the time t (R173); its record's read is
charged as eight scratch elements (R346). -/
def cpyEff (t : TVal) (s : State) : State :=
  (ceSet (scratchRead s (ceyOf s % 2 ^ 32) 64) { s.core.ce with buf := s.core.ce.buf ++ [{
    ctx := s.frame.cur.ctx, pc := s.frame.pc, sclk := s.arch.sclk, s := cexOf s % 2 ^ 32, b := bits (cexOf s) 32 3,
    first := bits (cexOf s) 35 6, dir := bits (cexOf s) 41 1 == 1, t := (lo64 t).toNat, shape := cpyRec s,
    recAddr := ceyOf s % 2 ^ 32, checked := chkOf s, ready := s.frame.cyc1 + 3 }] }).chargeHere 3 8

/-- CPYS: scratch address x[31:0], channel x[32], length y[31:0], main address t (R178). -/
def cpysOk (t : TVal) (s : State) : Prop :=
  bits (cexOf s) 33 31 = 0 ∧ ceyOf s % 8 = 0 ∧ 8 ≤ ceyOf s ∧ ceyOf s ≤ 2 ^ 24 ∧
    inScratch s (cexOf s % 2 ^ 32) (ceyOf s) 8 ∧ (lo64 t).toNat % 8 = 0 ∧
    (s.core.ce.chan (bits (cexOf s) 32 1 == 1)).length < 4
def cpysEff (t : TVal) (s : State) : State :=
  let j := bits (cexOf s) 32 1 == 1
  ceSet s (s.core.ce.setChan j (s.core.ce.chan j ++ [{
    ctx := s.frame.cur.ctx, pc := s.frame.pc, s := cexOf s % 2 ^ 32, len := ceyOf s, va := lo64 t, ready := s.frame.cyc1 + 3 }]))

/-- XFER: source x[31:0], words x[47:32], destination y[31:0], logical core y[41:32], offset t[31:0] (R180). -/
def xferOk (t : TVal) (s : State) : Prop :=
  let n := 8 * bits (cexOf s) 32 16
  bits (cexOf s) 48 16 = 0 ∧ bits (ceyOf s) 42 22 = 0 ∧ (lo64 t).toNat < 2 ^ 32 ∧ 0 < n ∧
    bits (ceyOf s) 32 10 < ((s.launch.map fun l => l.cores.length).getD 0) ∧
    inScratch s (cexOf s % 2 ^ 32) n 8 ∧ inScratch s (ceyOf s % 2 ^ 32) n 8 ∧ s.ctx.xfers.length < 64
def xferEff (t : TVal) (s : State) : State :=
  s.setCtx { s.ctx with xfers := s.ctx.xfers ++ [{
    ctx := s.frame.cur.ctx, src := cexOf s % 2 ^ 32, len := 8 * bits (cexOf s) 32 16, dst := ceyOf s % 2 ^ 32,
    dcore := bits (ceyOf s) 32 10, ofs := (lo64 t).toNat, pc := s.frame.pc, ready := s.frame.cyc1 + 3 }] }

/-- SHAPE writes a record's tile coordinates x[47:0] at its store cycle (R176). -/
def shapeEff (t : TVal) (s : State) : State := queued (s.frame.cyc1 + 2) (.shape (at_ t) (lo64 (s.opnd 0x100))) s

/-- The code lengths of a decode table's 128 bytes: of symbol 2i the low nibble of byte i, of 2i + 1 the high (R177). -/
def lengthsAt (s : State) (a : Nat) : List Nat :=
  (List.range 128).flatMap fun i => [(s.seenScratch.read (a + i)).toNat % 16, (s.seenScratch.read (a + i)).toNat / 16]
/-- DCT: table x[3:0], not in use by a queued CPY, of a complete code (R177, R252). -/
def dctOk (t : TVal) (s : State) : Prop :=
  let l := lengthsAt s (at_ t)
  at_ t + 128 ≤ 2048 * ppwScr s.core.rows.ppw ∧ s.seenRows.readLoss (at_ t) 128 = none ∧ cexOf s < 16 ∧
    (∀ c ∈ s.core.ce.buf, c.shape.dec = true → c.shape.dti ≠ cexOf s) ∧
    (∀ n ∈ l, n ≤ 12) ∧ ((l.filter (· ≠ 0)).map fun n => 2 ^ (12 - n)).sum = 4096
def dctEff (t : TVal) (s : State) : State :=
  (ceSet (scratchRead s (at_ t) 128) { s.core.ce with tables := s.core.ce.tables.put (cexOf s) (lengthsAt s (at_ t)) }).chargeHere 3 16

/-- CBCLR clears the bits x of cb[t[2:0]] (R175). -/
def cbclrEff (t : TVal) (s : State) : State :=
  let b := (lo64 t).toNat % 8
  s.setCtx { s.ctx with cb := s.ctx.cb.put b (SMap.get 0 s.ctx.cb b &&& ~~~(lo64 (s.opnd 0x100))) }
/-- WPCLR zeroes the write pointer of an idle channel t[0] (R179). -/
def wpclrEff (t : TVal) (s : State) : State :=
  ceSet s (if (lo64 t).getLsbD 0 then { s.core.ce with wp1 := 0 } else { s.core.ce with wp0 := 0 })
/-- CATOM waits for its answer, whose PCC is a free choice (R181). -/
def catomEff (due : Nat) (t : TVal) (s : State) : State :=
  ceSet { s with ctr := s.ctr + 1 } { s.core.ce with catoms := s.core.ce.catoms ++ [{
    ctx := s.frame.cur.ctx, pc := s.frame.pc, sclk := s.arch.sclk, add := lo64 (s.opnd 0x100), va := lo64 t, due := due,
    ready := s.frame.cyc1 + 3 }] }

/-! ## The copy engine at work -/

/-- The n-th command of the buffer is the first that may begin, with a legal record (R170, R173, R266). -/
def begins (s : State) (n : Nat) (c : CopyCmd) : Prop :=
  let may := fun (d : CopyCmd) => !d.begun && decide (d.t ≤ s.pcc) && decide (d.ready ≤ s.core.cyc)
  s.core.ce.buf[n]? = some c ∧ may c = true ∧ (∀ d ∈ s.core.ce.buf.take n, may d = false) ∧ c.shape.ok = true ∧ c.shape.even = true
/-- The partition and die of the cursor's core. -/
def partHere (s : State) : Nat := s.partOfCore s.frame.cur.core
def dieHere (s : State) : Nat := dieOf s.frame.cur.core
/-- The partition takes no watched pages (R260, R351), so that an access writes no records. -/
def unwatched (s : State) : Prop := (s.part (partHere s)).accepts 2 = false
/-- The elements of a tile by dimensions 2, 1, 0: a tensor element, or a byte that holds two of 4 bits; in checked mode those
outside the tensor are left out. Of a decoded tile, its bytes, none where it is outside (R171, R172, R177, R263). -/
def tileElements (c : CopyCmd) : List CopyEl :=
  let r := c.shape
  let n := max 1 (r.bits / 8)
  let per := 8 * n / r.bits
  let row := r.ext0 / per
  if r.dec then
    if c.checked = true ∧ r.outside = true then []
    else (List.range r.size).map fun o => { chunk := c.first + o / 512, loc := c.s + o, va := 0, n := 1 }
  else
    (List.range r.ext2).flatMap fun e2 => (List.range r.ext1).flatMap fun e1 => (List.range row).filterMap fun i =>
      let x := r.tx * r.ext0 + per * i
      let y := r.ty * r.ext1 + e1
      let z := r.tz * r.ext2 + e2
      let o := n * (i + row * (e1 + r.ext1 * e2))
      if c.checked = true ∧ ¬(x < r.dim0 ∧ y < r.dim1 ∧ z < r.dim2) then none
      else some { chunk := c.first + o / 512, loc := c.s + o, n := n,
                  va := r.base + BitVec.ofNat 64 (x / per * n) + BitVec.ofNat 64 y * r.str1 + BitVec.ofNat 64 z * r.str2 }
/-- The copy engine with command n begun: its elements are left to perform and its chunks to be set (R173, R174). -/
def withBegun (s : State) (n : Nat) (c : CopyCmd) : CopyEngine :=
  { s.core.ce with buf := s.core.ce.buf.take n ++
      [{ c with begun := true, chunks := (List.range ((c.shape.size + 511) / 512)).map fun i => c.first + i, els := tileElements c }] ++
      s.core.ce.buf.drop (n + 1) }

/-- The cursor's core has one transfer, begun and not decoded, and neither an erring word nor a hold. -/
def oneTransfer (s : State) (c : CopyCmd) : Prop :=
  s.core.ce.buf = [c] ∧ c.begun = true ∧ c.shape.dec = false ∧ s.core.rows.errs = [] ∧ s.core.hold ≤ s.core.cyc
/-- Elements in places apart from one another, each with as many bytes as it has, once read. -/
def apart (l : List CopyEl) : Prop :=
  l.Pairwise (fun a b => a.loc + a.n ≤ b.loc ∨ b.loc + b.n ≤ a.loc) ∧ ∀ e ∈ l, 0 < e.n ∧ ∀ bs, e.got = some bs → bs.length = e.n
/-- What one half of a core's copy cycle leaves of its transfer: its elements, and nothing else of the copy engine. -/
def transferLeft (s t : State) (c : CopyCmd) (els : List CopyEl) : Prop :=
  (∃ m, t.core.ce = { s.core.ce with buf := [{ c with els := els, moved := m }] }) ∧ t.pcc = s.pcc ∧ t.launches = s.launches ∧
    (∀ n, n ≠ s.frame.cur.core → t.coreAt n = s.coreAt n) ∧ t.core.ctxs = s.core.ctxs ∧ t.core.accs = s.core.accs ∧
    t.core.me0 = s.core.me0 ∧ t.core.me1 = s.core.me1 ∧ t.core.larder = s.core.larder ∧ t.core.rows = s.core.rows

/-- An answer landed in a state, with its context's other state as given: pk as a move from its slot writes it, the code at
LSn.q and in its place among the results due at the sc of the bundle after its own, the wait ended (R45, R46, R166). -/
def landed (s s1 : State) (w : AnswerWait) (val : Bool) (code : Option Nat) : State :=
  let x := s1.ctx
  let r := x.cur.regs
  let regs := if w.pk = 0 then r else { r with
    p := r.p.put w.pk ((r.getP w.pk).land val),
    flg := { r.flg with acc := r.flg.acc ||| (if (r.getP w.pk).wr then Flags.dw else 0) } }
  let port := 0x92 + w.slot
  let a := { x.cur with regs := regs }
  let b := match code with
    | some n => { a with ports := a.ports.put port (plain n),
                         pipe := a.pipe ++ [{ seq := w.seq, port := port, due := w.issued + 1, res := plain n, flags := 0 }] }
    | none => a
  let c := s.frame.cur
  s1.setCoreAt c.core ((s1.coreAt c.core).setCtx c.ctx { x with cur := b, answers := x.answers.erase w })

/-- The addresses of a range, one in each page it touches (R167). -/
def pageAddrs (va : W64) (n : Nat) : List W64 :=
  (List.range ((va.toNat % 4096 + n + 4095) / 4096)).map fun i =>
    BitVec.ofNat 64 (va.toNat + if i = 0 then 0 else 4096 * i - va.toNat % 4096)

/-- A granule's bytes, up to 64 (R178). -/
def granule (st : Stream) : Nat := min 64 (st.len - st.pos)

end Sys2Proof.Machine

/-- R169 to R180: CPY, CPYS, XFER, SHAPE, DCT, CBCLR and WPCLR with their operands in order each queue their command or
take their effect, with a record of TYPE 5; nothing else changes. -/
def Sys2Proof.Machine.copyCommandResultsHold : Prop :=
  ceFires .cpy .cpyExt 0x110 cpyEff (fun _ s => cpyOk s) ∧ ceFires .cpys .cpysExt 0x111 cpysEff cpysOk ∧
  ceFires .xfer .xferExt 0x112 xferEff xferOk ∧
  ceFires .shape .shapeExt 0x114 shapeEff (fun t s => inScratch s (at_ t) 64 64) ∧
  ceFires .dct .dctExt 0x115 dctEff dctOk ∧ ceFires .cbclr .cbclrExt 0x116 cbclrEff (fun _ _ => True) ∧
  ceFires .wpclr .wpclrExt 0x117 wpclrEff (fun t s => (s.core.ce.chan ((lo64 t).getLsbD 0)) = [])

/-- R181, R182: CATOM of an aligned address waits for its answer (its PCC is a free choice), with a record of TYPE 5; SIGNAL
is queued for its store cycle; GMARK puts a record of TYPE 7 in the ring. Nothing else changes. -/
def Sys2Proof.Machine.catomAndSystemResultsHold : Prop :=
  (∀ (w : Slot) (s : State), Runs w s → (lo64 (s.srcVal w.src)).toNat % 8 = 0 →
    (∃ n, s.pcc < n ∧ exec (.catom w) s = .next (told 0x113 (catomEff n (s.srcVal w.src) s)))) ∧
  (∀ (w : Slot) (e : Word24) (rest : List Word24) (s : State), RunsExt w e rest s → (lo64 (s.srcVal w.src)).toNat % 8 = 0 →
    (∃ n, s.pcc < n ∧
      exec (.catomExt w) s = .next (told 0x163 (catomEff n (s.srcVal w.src) (armed e rest 0x100 0x101 s))))) ∧
  (∀ (w : Slot) (s : State), Runs w s →
    exec (.signal w) s = .next (queued (s.frame.cyc1 + 2) (.signal (lo32 (s.srcVal w.src))) s).noRoll ∧
    exec (.gmark w) s = .next (s.trace 7 (lo32 (s.srcVal w.src)).toNat).noRoll)

/-- R170 to R173, R177, R266: the first due command in buffer order begins, with the elements of its tile to perform and its chunks
to be set; while another is in progress a free choice may leave it waiting. Nothing else changes, and where no command may begin
nothing happens. -/
def Obligations.CpyBegins : Prop :=
  (∀ (s : State) (n : Nat) (c : CopyCmd), begins s n c → (∀ d ∈ s.core.ce.buf, d.begun = false) →
    exec .cpyBegin s = .next (ceSet s (withBegun s n c))) ∧
  (∀ (s : State) (n : Nat) (c : CopyCmd), begins s n c → (∃ d ∈ s.core.ce.buf, d.begun = true) →
    exec .cpyBegin s = .next (ceSet { s with ctr := s.ctr + 1 } (withBegun s n c)) ∨
      exec .cpyBegin s = .next { s with ctr := s.ctr + 1 }) ∧
  ∀ s : State, (∀ c ∈ s.core.ce.buf, c.begun = true ∨ s.pcc < c.t ∨ s.core.cyc < c.ready) → exec .cpyBegin s = .next s

/-- R158, R169, R263: in a core's cycle the copy engine reads elements of its transfer from main memory, or from the scratch, as
they stand; those read it writes to the other; which it takes is a free choice, and an element written is gone from the transfer.
Every byte of the scratch that no written element covers reads as before. While the core's pool is held nothing that touches the
scratch is done. -/
def Sys2Proof.Machine.transferMovesHold : Prop :=
  (∀ (s : State) (c : CopyCmd), oneTransfer s c → c.dir = false → unwatched s →
    (∀ e ∈ c.els, ∃ l, s.vread (partHere s) (dieHere s) e.va e.n = .ok l) →
    ∃ els : List CopyEl, transferLeft s (s.moveTiles s.frame.cur.core false) c els ∧ els.length = c.els.length ∧
      (s.moveTiles s.frame.cur.core false).mem = s.mem ∧ (s.moveTiles s.frame.cur.core false).core.scratch = s.core.scratch ∧
      ∀ (i : Nat) (e : CopyEl), c.els[i]? = some e → els[i]? = some e ∨ (e.got = none ∧
        ∃ l, s.vread (partHere s) (dieHere s) e.va e.n = .ok l ∧ els[i]? = some { e with got := some l })) ∧
  (∀ (s : State) (c : CopyCmd), oneTransfer s c → c.dir = false → apart c.els →
    ∃ els : List CopyEl, transferLeft s (s.moveTiles s.frame.cur.core true) c els ∧ els.Sublist c.els ∧
      (s.moveTiles s.frame.cur.core true).mem = s.mem ∧
      (∀ e ∈ c.els, e ∉ els → e.got = some ((s.moveTiles s.frame.cur.core true).core.scratch.readBytes e.loc e.n)) ∧
      ∀ a, (∀ e ∈ c.els, e ∉ els → a < e.loc ∨ e.loc + e.n ≤ a) →
        (s.moveTiles s.frame.cur.core true).core.scratch.read a = s.core.scratch.read a) ∧
  (∀ (s : State) (c : CopyCmd), oneTransfer s c → c.dir = true →
    ∃ els : List CopyEl, transferLeft s (s.moveTiles s.frame.cur.core false) c els ∧ els.length = c.els.length ∧
      (s.moveTiles s.frame.cur.core false).mem = s.mem ∧ (s.moveTiles s.frame.cur.core false).core.scratch = s.core.scratch ∧
      ∀ (i : Nat) (e : CopyEl), c.els[i]? = some e → els[i]? = some e ∨
        (e.got = none ∧ els[i]? = some { e with got := some (s.core.scratch.readBytes e.loc e.n) })) ∧
  (∀ (s t : State) (c : CopyCmd) (e : CopyEl) (bs : List Byte), oneTransfer s c → c.dir = true → unwatched s → c.els = [e] →
    e.got = some bs → s.vwrite (partHere s) (dieHere s) e.va bs = .ok t →
    ∃ els : List CopyEl, transferLeft s (s.moveTiles s.frame.cur.core true) c els ∧
      (s.moveTiles s.frame.cur.core true).core.scratch = s.core.scratch ∧
      ((els = [e] ∧ (s.moveTiles s.frame.cur.core true).mem = s.mem) ∨
        (els = [] ∧ (s.moveTiles s.frame.cur.core true).mem = t.mem))) ∧
  ∀ (s : State) (c : CopyCmd) (late : Bool), s.core.ce.buf = [c] → c.begun = true → c.dir ≠ late → s.core.cyc < s.core.hold →
    (s.moveTiles s.frame.cur.core late).core = s.core ∧ (s.moveTiles s.frame.cur.core late).mem = s.mem

/-- R177, R253: a decoder's first read takes its stream's address from the index entry; each later read takes the next aligned
word, and the symbols it completes are the next bytes of the tile. -/
def Sys2Proof.Machine.decoderReadsHold : Prop :=
  (∀ (s : State) (c : CopyCmd) (l : List Byte), c.dec.next = none → unwatched s →
    s.vread (partHere s) (dieHere s) c.shape.entryAddr 8 = .ok l →
    (s.decodeRead s.frame.cur.core c).2 = ({ c with dec := { c.dec with next := some (leNat l / 8 * 8), skip := 8 * (leNat l % 8) } }, none)) ∧
  (∀ (s : State) (c : CopyCmd) (a : Nat) (l : List Byte) (pre post : List CopyEl), c.dec.next = some a → unwatched s →
    s.vread (partHere s) (dieHere s) (BitVec.ofNat 64 a) 8 = .ok l → c.els = pre ++ post → (∀ e ∈ pre, e.got.isSome = true) →
    (∀ e ∈ post, e.got = none) →
    let d := decodeMany (SMap.get [] s.core.ce.tables c.shape.dti) post.length
      (c.dec.pend ++ ((l.flatMap fun b => (List.range 8).map fun i => b.getLsbD (7 - i)).drop c.dec.skip)) []
    (s.decodeRead s.frame.cur.core c).2 =
      ({ c with els := pre ++ ((post.zip d.1).map fun x => { x.1 with got := some [x.2] }) ++ post.drop d.1.length,
                dec := { next := some (a + 8), skip := 0, pend := d.2 } }, none))

/-- R174, R178, R179, R181, R345: the chunks of a transfer none of whose elements is left set their bits by OR in the bitmap of its
context, and it leaves the buffer with its last chunk; the words a stream has read are main memory's, and its granule lands in the
scratch, with its write pointer rising by its size, or a free choice leaves it for later; a due CATOM adds to its word and delivers
the old one to CE.q of a context that has not stopped, but where it gives way to a request at foreground priority. Where nothing is
due nothing happens. -/
def Obligations.CopyProgress : Prop :=
  Sys2Proof.Machine.transferMovesHold ∧ Sys2Proof.Machine.decoderReadsHold ∧
  (∀ s : State, (∀ c ∈ s.core.ce.buf, c.begun = true → c.chunks ≠ [] ∧ ∀ b ∈ c.chunks, ∃ e ∈ c.els, e.chunk = b) →
    exec .chunkBitSet s = .next s) ∧
  (∀ (s : State) (c : CopyCmd), s.core.ce.buf = [c] → c.begun = true →
    let open_ := fun b => c.els.any fun e => e.chunk == b
    (∃ b ∈ c.chunks, open_ b = false) → (∀ b ∈ c.chunks, b < 64) →
    let x := s.core.ctx c.ctx
    let left := c.chunks.filter open_
    ∃ v : W64, (∀ i < 64, v.getLsbD i = ((SMap.get 0 x.cb c.b).getLsbD i || decide (i ∈ c.chunks ∧ open_ i = false))) ∧
      exec .chunkBitSet s = .next (s.setCore ({ s.core with ce := { s.core.ce with
        buf := if left = [] then [] else [{ c with chunks := left }] } }.setCtx c.ctx { x with cb := x.cb.put c.b v }))) ∧
  (∀ (s : State) (j : Bool) (st : Stream) (rest : List Stream), s.core.ce.chan j = st :: rest → st.ready ≤ s.core.cyc → unwatched s →
    (∀ i ∈ st.window, ∃ l, s.vread (partHere s) (dieHere s) (st.va + BitVec.ofNat 64 (8 * i)) 8 = .ok l) →
    ∃ ws : SMap W64, (s.readStream s.frame.cur.core j).core = { s.core with ce := s.core.ce.setChan j ({ st with words := ws } :: rest) } ∧
      (s.readStream s.frame.cur.core j).mem = s.mem ∧
      ∀ i v, SMap.find ws i = some v → SMap.find st.words i = some v ∨ ∃ l,
        s.vread (partHere s) (dieHere s) (st.va + BitVec.ofNat 64 (8 * i)) 8 = .ok l ∧ v = BitVec.ofNat 64 (leNat l)) ∧
  (∀ (s : State) (st : Stream) (rest : List Stream) (w : Nat → W64), s.core.ce.chan s.frame.cur.eng = st :: rest →
    s.core.hold ≤ s.core.cyc → st.ready ≤ s.core.cyc → st.pos % 8 = 0 → st.len % 8 = 0 →
    let n := granule st
    (∀ i < n / 8, SMap.find st.words (st.pos / 8 + i) = some (w i)) →
    exec .streamGranule s = .next { s with ctr := s.ctr + 1 } ∨
    ∃ t : State, exec .streamGranule s = .next t ∧ t.mem = s.mem ∧ t.core.ctxs = s.core.ctxs ∧
      t.core.ce.chan s.frame.cur.eng = (if st.len ≤ st.pos + n then rest else
        { st with pos := st.pos + n, words := st.words.filter fun x => decide (x.1 < st.pos / 8 ∨ st.pos / 8 + n / 8 ≤ x.1) } :: rest) ∧
      t.core.ce.chan (!s.frame.cur.eng) = s.core.ce.chan (!s.frame.cur.eng) ∧
      t.core.ce.wp s.frame.cur.eng = s.core.ce.wp s.frame.cur.eng + BitVec.ofNat 64 n ∧
      t.core.ce.wp (!s.frame.cur.eng) = s.core.ce.wp (!s.frame.cur.eng) ∧
      t.core.scratch.readBytes (st.s + st.pos) n = ((List.range (n / 8)).flatMap fun i => leBytes 8 (w i).toNat) ∧
      ∀ a, a < st.s + st.pos ∨ st.s + st.pos + n ≤ a → t.core.scratch.read a = s.core.scratch.read a) ∧
  (∀ (s : State) (n : Nat) (c : CatomCmd) (l : List Byte) (t : State), s.core.ce.catoms[n]? = some c → c.due ≤ s.pcc →
    c.ready ≤ s.core.cyc → (∀ d ∈ s.core.ce.catoms.take n, s.pcc < d.due ∨ s.core.cyc < d.ready) → unwatched s →
    (s.part (partHere s)).bg = false →
    let s1 := ceSet s { s.core.ce with catoms := s.core.ce.catoms.take n ++ s.core.ce.catoms.drop (n + 1) }
    let old := BitVec.ofNat 64 (leNat l)
    s.vread (partHere s) (dieHere s) c.va 8 = .ok l →
    s1.vwrite (partHere s) (dieHere s) c.va (leBytes 8 (old + c.add).toNat) = .ok t →
    let x := s.core.ctx c.ctx
    ∃ u : State, exec .catomAnswer s = .next u ∧ u.mem = t.mem ∧ u.pcc = s.pcc ∧ u.launches = s.launches ∧
      (∀ m, m ≠ s.frame.cur.core → u.coreAt m = s.coreAt m) ∧
      u.core = (if x.status = .stopped then s1.core
        else s1.core.setCtx c.ctx { x with cur := { x.cur with ports := x.cur.ports.put 0x9A (plain old.toNat) },
                                           landed := x.landed ++ [(6, 0x9A, c.sclk, some old)] })) ∧
  (∀ s : State, (∀ c ∈ s.core.ce.catoms, s.pcc < c.due ∨ s.core.cyc < c.ready ∨ s.givesWay (partHere s) (dieHere s) c.va = true) →
    exec .catomAnswer s = .next s)

/-- R166 to R168, R183, R250: an answer lands with its code: a PROBE's by its pages, 3 where one is denied, 0 where all are present
with the permission, else as the page request for the first that is not present answers (a leaf whose A or D bit is clear counts as not present, assumption 28);
an EVAC's with its moves at the answer, 1 where a plan derived as 0 no longer fits (assumption 34); the planner's lease. The
predicate is written as a move writes it, and LSn.q takes the code. Where no answer is due nothing happens. -/
def Obligations.AnswersLand : Prop :=
  (∀ (s : State) (w : AnswerWait), s.ctx.answerOf 0 s.core.cyc = some w →
    let pages := pageAddrs (BitVec.ofNat 64 (w.arg / 2 ^ 21)) (w.arg % 2 ^ 20 + 1)
    let at_ := fun va => s.xlat (partHere s) (dieHere s) va (w.arg / 2 ^ 20 % 2 == 1)
    ((∃ va ∈ pages, at_ va = .denied) → exec .probeAnswer s = .next (landed s s w false (some 3))) ∧
    ((∀ va ∈ pages, ∃ pa f, at_ va = .ok pa f) → exec .probeAnswer s = .next (landed s s w true (some 0))) ∧
    (∀ pre va post, pages = pre ++ va :: post → (∀ v ∈ pages, at_ v ≠ .denied) → (∀ v ∈ pre, at_ v ≠ .absent) → at_ va = .absent →
      let page := va &&& ~~~0xFFF
      let q := s.askPage (partHere s) (dieHere s)
        { part := partHere s, asid := s.asid (partHere s) (dieHere s), page := page, write := w.arg / 2 ^ 20 % 2 == 1, pool := 0 } 1
        ((s.launch.map fun l => contextName l s.core s.frame.cur.core s.frame.cur.ctx).getD [])
      (q.1 = 1 ∨ q.1 = 2) ∧ exec .probeAnswer s = .next (landed s q.2 w false (some q.1)))) ∧
  (∀ (s : State) (w : AnswerWait), s.ctx.answerOf 1 s.core.cyc = some w →
    let p := s.core.rows.evacPlan w.arg
    (w.code = 0 → p.fits = true →
      let s1 := (s.setCore (s.core.evacuate p s.pcc)).chargeHere 9 (p.d.length + 64 * p.dl.length)
      exec .evacAnswer s = .next (landed s s1 w true (some 0))) ∧
    (w.code = 0 → p.fits = false → exec .evacAnswer s = .next (landed s s w false (some 1))) ∧
    (w.code ≠ 0 → exec .evacAnswer s = .next (landed s s w false (some w.code)))) ∧
  (∀ (s : State) (granted : Bool) (dur : Nat) (w : AnswerWait), s.ctx.answers.find? (fun w => w.kind == 2) = some w →
    let d := min dur w.arg
    let p := s.part (partHere s)
    let e := d * s.core.pwr.pb
    let s1 := (s.setPart (partHere s) { p with pool := p.pool - Int.ofNat e }).setCore
      { s.core with lease := some { ctx := s.frame.cur.ctx, left := d, granted := d, debit := e } }
    exec (.leaseAnswer granted dur) s = .next (
      if granted = true ∧ s.core.lease = none ∧ p.accepts 1 = true ∧ 0 < d then landed s s1 w true none
      else landed s s w false none)) ∧
  (∀ (s : State) (granted : Bool) (dur : Nat),
    (s.ctx.answerOf 0 s.core.cyc = none → exec .probeAnswer s = .next s) ∧
    (s.ctx.answerOf 1 s.core.cyc = none → exec .evacAnswer s = .next s) ∧
    ((∀ w ∈ s.ctx.answers, w.kind ≠ 2) → exec (.leaseAnswer granted dur) s = .next s))

namespace Sys2Proof.Machine

/-! ## Launch-wide steps (R180, R296 to R301) -/

/-- A launch of the cursor's partition, placed, and its place in the list unique. -/
def launchIs (s : State) (tag : W32) (l : Launch) : Prop :=
  findLaunch s.launches s.frame.cur.part tag = some l ∧ l.status = .placed ∧ l.tag = tag ∧ l.part = s.frame.cur.part
/-- The launch of a tag after a step. -/
def launchThen (t : State) (l : Launch) : Option Launch := findLaunch t.launches l.part l.tag
/-- The context of a member. -/
def memberOf (s : State) (l : Launch) (m : Nat × Nat) : Ctx := (s.coreAt (l.cores.getD m.1 0)).ctx m.2
/-- No entry of a launch waits for a release. -/
def noEntries (s : State) (l : Launch) : Prop :=
  ∀ c ∈ l.cores, ∀ x < 4, ∀ e ∈ ((s.coreAt c).ctx x).xfers, e.rel.isSome = true
/-- What a launch-wide step leaves: the PCC, main memory, the partitions, the translation blocks, and the cores that are not
the launch's. -/
def launchFrame (s t : State) (l : Launch) : Prop :=
  t.pcc = s.pcc ∧ t.mem = s.mem ∧ t.parts = s.parts ∧ t.tx = s.tx ∧ t.prq = s.prq ∧ t.dumps = s.dumps ∧ t.irqs = s.irqs ∧
    t.frame = s.frame ∧ (∀ n, n ∉ l.cores → t.coreAt n = s.coreAt n)
/-- The scratch, the Larder, the engines and the copy engine of a core as they were. -/
def coreKept (s t : State) (n : Nat) : Prop :=
  (t.coreAt n).scratch = (s.coreAt n).scratch ∧ (t.coreAt n).larder = (s.coreAt n).larder ∧ (t.coreAt n).me0 = (s.coreAt n).me0 ∧
    (t.coreAt n).me1 = (s.coreAt n).me1 ∧ (t.coreAt n).ce = (s.coreAt n).ce ∧ (t.coreAt n).accs = (s.coreAt n).accs

/-- A member of a group: of group 255 every context of every core, of another one those its masks name (R294, R296). -/
def isMember (l : Launch) (g : Nat) (m : Nat × Nat) : Prop :=
  if g = 255 then m.1 < l.cores.length ∧ m.2 < l.nctx else (g, m) ∈ l.groups
/-- A member has arrived in a group's episode, or has ended (R296). -/
def hasCome (s : State) (l : Launch) (g : Nat) (m : Nat × Nat) : Prop :=
  (∃ a ∈ (SMap.get {} l.episodes g).arrived, a.1 = m) ∨ (memberOf s l m).status = .halted ∨
    (memberOf s l m).status = .stopped ∨ (memberOf s l m).status = .absent
/-- The writes of a member that a barrier waits for have performed: of its accesses that have not, none is other than a load or a
SIGNAL (R269). -/
def hasWritten (s : State) (l : Launch) (m : Nat × Nat) : Prop :=
  ∀ a ∈ (s.coreAt (l.cores.getD m.1 0)).accs, a.ctx = m.2 → match a.kind with
    | .load .. => True
    | .signal _ => True
    | _ => False
/-- A group's episode may release (R269, R296). -/
def mayGo (s : State) (l : Launch) (g : Nat) : Prop :=
  (∀ m, isMember l g m → hasCome s l g m ∧ hasWritten s l m) ∧ (g = 255 → l.step = none)

/-- The largest length that the arrived members of an episode have declared (R297). -/
def isStepOf (e : Episode) (n : Nat) : Prop := (∀ m ∈ e.arrived, m.2 ≤ n) ∧ ∃ m ∈ e.arrived, m.2 = n
/-- The entries a launch's contexts have queued for the next step, each with its core. -/
def queuedEntries (s : State) (l : Launch) : List (Nat × XferEntry) :=
  l.cores.flatMap fun c => (List.range 4).flatMap fun x => (((s.coreAt c).ctx x).xfers.filter fun e => e.rel.isNone).map fun e => (c, e)
/-- The core an entry writes to. -/
def goesTo (l : Launch) (x : Nat × XferEntry) : Nat := l.cores.getD x.2.dcore 0
/-- An entry's window passes the end of a step of n (R180). -/
def outOfStep (l : Launch) (n : Nat) (x : Nat × XferEntry) : Prop :=
  n < x.2.ofs + (if dieOf x.1 = dieOf (goesTo l x) then 32 else 160) + (x.2.len + 63) / 64
open scoped Classical in
/-- The bytes that the entries within the step carry, of those that some test takes. -/
noncomputable def carried (s : State) (l : Launch) (n : Nat) (f : Nat × XferEntry → Prop) : Nat :=
  (((queuedEntries s l).filter fun x => ¬outOfStep l n x ∧ f x).map fun x => x.2.len).sum
/-- An entry is in error at the release of a step of n: its window passes the end, or it counts in a total of the others' that fails its
bound, out of its core, into its destination, or across a boundary in its direction (R180, R298). -/
def entryFails (s : State) (l : Launch) (n : Nat) (x : Nat × XferEntry) : Prop :=
  outOfStep l n x ∨ 64 * n < carried s l n (fun y => y.1 = x.1) ∨ 64 * n < carried s l n (fun y => goesTo l y = goesTo l x) ∨
    (dieOf x.1 ≠ dieOf (goesTo l x) ∧
      8000 * n < carried s l n (fun y => dieOf y.1 = dieOf x.1 ∧ dieOf (goesTo l y) = dieOf (goesTo l x)))
/-- A context has such an entry. -/
def ctxFails (s : State) (l : Launch) (n core c : Nat) : Prop :=
  ∃ e ∈ ((s.coreAt core).ctx c).xfers, e.rel = none ∧ entryFails s l n (core, e)
/-- What a release does to an arrived member that is blocked on the barrier: it is ready where its core ends a cycle in this PCC cycle
and tests it in it, else its condition holds for the next test (R58, R129). -/
def letsGo (s t : State) (l : Launch) (m : Nat × Nat) : Prop :=
  let k := s.coreAt (l.cores.getD m.1 0)
  if k.last = s.pcc ∧ (memberOf s l m).first ≤ k.cyc + 1 then (memberOf t l m).status = .ready ∧ (memberOf t l m).cond = none
  else (memberOf t l m).status = .blocked ∧ (memberOf t l m).cond = some .done

/-- Tile coordinates of an index (R301). -/
def tileOf (tiles : W64) (i : Nat) : Nat :=
  let nx := tiles.toNat % 2 ^ 16
  let ny := tiles.toNat / 2 ^ 16 % 2 ^ 16
  i % nx + 2 ^ 16 * (i / nx % ny) + 2 ^ 32 * (i / (nx * ny))

end Sys2Proof.Machine

/-- R129, R269, R296, R297: where every member of a group has arrived or ended, each store, scratch atomic, SHAPE, WPSET, LDSC and
MPUT it has issued has performed, and, for group 255, no step runs, the release ends the episode; an arrived member that is blocked on
the barrier is ready where its core has ended a cycle in this PCC cycle and tests it in it, and its condition holds for the test at the
end of its core's cycle where not. Group 255 begins a step of the largest length its arrived members have declared. A context with an
entry whose window passes that step's end, or that counts in a total over its bound, stops with a communication-step error and its
entries do not run; the others' entries run from the release. Where it may not release, nothing
happens. The instant of the test is the model's step order (assumption 2). -/
def Obligations.BarrierReleases : Prop :=
  (∀ (s : State) (tag : W32) (g : Byte) (l : Launch), launchIs s tag l →
    let e := SMap.get {} l.episodes g.toNat
    e.arrived ≠ [] → (∀ m ∈ e.arrived, m.1.1 < l.cores.length ∧ m.1.2 < 4) → mayGo s l g.toNat → (g = 255 → noEntries s l) →
    ∃ t : State, exec (.barrierRelease tag g) s = .next t ∧ launchFrame s t l ∧ (∀ n ∈ l.cores, coreKept s t n) ∧
      (∀ m ∈ e.arrived, (memberOf s l m.1).status = .blocked → (memberOf s l m.1).cond = some (.bar g) →
        (memberOf t l m.1).cur = (memberOf s l m.1).cur ∧ letsGo s t l m.1) ∧
      (∀ l' : Launch, launchThen t l = some l' → SMap.find l'.episodes g.toNat = none ∧
        (g ≠ 255 → l'.step = l.step) ∧
        (g = 255 → ∃ n, l'.step = some (s.pcc, s.pcc + n) ∧ isStepOf e n))) ∧
  (∀ (s : State) (tag : W32) (l : Launch) (n : Nat), launchIs s tag l → l.cores.Nodup →
    let e := SMap.get {} l.episodes 255
    e.arrived ≠ [] → (∀ m ∈ e.arrived, m.1.1 < l.cores.length ∧ m.1.2 < 4) → mayGo s l 255 → isStepOf e n →
    (∀ c ∈ l.cores, ∀ x < 4, ∀ f ∈ ((s.coreAt c).ctx x).xfers, f.ctx = x) →
    (∀ c ∈ l.cores, ∀ x < 4, (s.coreAt c).issuing = some x → ctxFails s l n c x → ∀ y < 4, ((s.coreAt c).ctx y).status ≠ .awaiting) →
    ∃ t : State, exec (.barrierRelease tag 255) s = .next t ∧ t.pcc = s.pcc ∧ t.mem = s.mem ∧ t.dumps = s.dumps ∧
      (∀ l' : Launch, launchThen t l = some l' → l'.step = some (s.pcc, s.pcc + n) ∧ SMap.find l'.episodes 255 = none) ∧
      (∀ c, c ∉ l.cores → t.coreAt c = s.coreAt c) ∧
      ∀ c ∈ l.cores, (t.coreAt c).scratch = (s.coreAt c).scratch ∧ (t.coreAt c).larder = (s.coreAt c).larder ∧ ∀ x < 4,
        let y := (s.coreAt c).ctx x
        let z := (t.coreAt c).ctx x
        (ctxFails s l n c x → z.xfers = y.xfers.filter (fun f => f.rel.isSome) ∧ (y.status = .absent ∨ z.status = .stopped) ∧
          (y.status ≠ .absent → y.status ≠ .stopped → ∃ m ∈ (t.coreAt c).marks, m.ctx = x ∧ ∃ i ∈ m.infos,
            i.errs = [(0x1A, BitVec.ofNat 64 s.pcc)] ∧ ∃ f ∈ y.xfers, f.rel = none ∧ entryFails s l n (c, f) ∧ i.cmd = f.pc)) ∧
        (¬ctxFails s l n c x →
          z.xfers = y.xfers.map (fun f => if f.rel.isNone then { f with rel := some s.pcc } else f) ∧
            ∀ i, l.cores.getD i 0 = c → i < l.cores.length → (∃ m ∈ e.arrived, m.1 = (i, x)) → y.status = .blocked →
              y.cond = some (.bar 255) → letsGo s t l (i, x))) ∧
  (∀ (s : State) (tag : W32) (g : Byte) (l : Launch), launchIs s tag l →
    ((SMap.get {} l.episodes g.toNat).arrived = [] ∨ ¬mayGo s l g.toNat) →
    exec (.barrierRelease tag g) s = .next s)

/-- R158, R180, R242, R263, R266, R299, R309: a released entry whose offset has come begins, with its 8-byte
elements to move. In
a cycle of its core, from the third after its bundle's last on, elements are read as the scratch stands, all of them by the end of its
window; in a cycle of the destination's
core those read are delivered, all of them by that end, and every other byte there reads as before. At the end of a step, its launch
is in none, and each core's last deferred request takes effect, OP7 only under a lease; before it, nothing happens. -/
def Obligations.TransfersAndStepEnd : Prop :=
  (∀ (s : State) (tag : W32) (l : Launch), launchIs s tag l → l.cores.Nodup →
    ∃ t : State, exec (.xferTransfer tag) s = .next t ∧ launchFrame s t l ∧ t.launches = s.launches ∧ (∀ n ∈ l.cores, coreKept s t n) ∧
      ∀ n ∈ l.cores, ∀ x < 4, (t.coreAt n).ctx x = { (s.coreAt n).ctx x with xfers := ((s.coreAt n).ctx x).xfers.map fun e =>
        match e.rel with
        | some r => if e.left = [] ∧ r + e.ofs ≤ s.pcc then { e with left := (List.range (e.len / 8)).map fun i => (8 * i, none) } else e
        | none => e }) ∧
  (∀ (s : State) (core : Nat) (l : Launch) (e : XferEntry), s.launchAt core = some l → (s.coreAt core).rows.errs = [] →
    (s.coreAt core).hold ≤ (s.coreAt core).cyc → (s.coreAt core).begun = [e] → e.ctx < 4 →
    e ∈ ((s.coreAt core).ctx e.ctx).xfers →
    ∃ left : List (Nat × Option (List Byte)), ((s.readXfers core).coreAt core).begun = [{ e with left := left }] ∧ (s.readXfers core).mem = s.mem ∧
      ((s.readXfers core).coreAt core).scratch = (s.coreAt core).scratch ∧ (∀ n, n ≠ core → (s.readXfers core).coreAt n = s.coreAt n) ∧
      left.map (·.1) = e.left.map (·.1) ∧
      (∀ (i o : Nat) (bs : List Byte), left[i]? = some (o, some bs) → e.left[i]? = some (o, some bs) ∨
        (e.left[i]? = some (o, none) ∧ bs = (s.coreAt core).scratch.readBytes (e.src + o) 8)) ∧
      ((s.coreAt core).cyc < e.ready → left = e.left) ∧
      (e.ready ≤ (s.coreAt core).cyc → l.windowEnd core e ≤ s.pcc + 7 → ∀ x ∈ left, x.2.isSome = true)) ∧
  (∀ (s : State) (core dst : Nat) (l : Launch) (e : XferEntry), s.launchAt dst = some l → l.cores.Nodup → core ∈ l.cores →
    dst ∉ l.lost → (s.coreAt dst).rows.errs = [] → (s.coreAt dst).hold ≤ (s.coreAt dst).cyc → e.ctx < 4 →
    (∀ c ∈ l.cores, ((s.coreAt c).begun.filter fun f => l.cores.getD f.dcore 0 == dst) = if c = core then [e] else []) →
    e ∈ ((s.coreAt core).ctx e.ctx).xfers → l.windowEnd core e ≤ s.pcc + 4 →
    e.left.Pairwise (fun x y => x.1 + 8 ≤ y.1) → (∀ x ∈ e.left, ∃ bs, x.2 = some bs ∧ bs.length = 8) →
    let t := s.writeXfers dst
    t.mem = s.mem ∧ t.pcc = s.pcc ∧ ((t.coreAt core).ctx e.ctx).xfers = ((s.coreAt core).ctx e.ctx).xfers.erase e ∧
      (∀ x ∈ e.left, x.2 = some ((t.coreAt dst).scratch.readBytes (e.dst + x.1) 8)) ∧
      (∀ a, (∀ x ∈ e.left, a < e.dst + x.1 ∨ e.dst + x.1 + 8 ≤ a) → (t.coreAt dst).scratch.read a = (s.coreAt dst).scratch.read a) ∧
      ∀ n, n ≠ dst → (t.coreAt n).scratch = (s.coreAt n).scratch) ∧
  (∀ (s : State) (tag : W32) (l : Launch) (a b : Nat), launchIs s tag l → l.step = some (a, b) →
    (s.pcc < b → exec (.commStepEnd tag) s = .next s) ∧
    (b ≤ s.pcc → ∃ t : State, exec (.commStepEnd tag) s = .next t ∧ launchFrame s t l ∧ (∀ n ∈ l.cores, coreKept s t n) ∧
      (∀ l' : Launch, launchThen t l = some l' → l'.step = none) ∧
      ∀ n ∈ l.cores, (t.coreAt n).ctxs = (s.coreAt n).ctxs ∧ (t.coreAt n).pwr.deferred = none ∧
        (t.coreAt n).pwr.req = match (s.coreAt n).pwr.deferred with
          | some j => if j < 7 ∨ (s.coreAt n).lease.isSome = true then j else 6
          | none => (s.coreAt n).pwr.req))

/-- R14, R40, R300, R301: a request that has arrived takes the next index of its die's dispenser, whose coordinates are its
answer, or bit 63 where none is left; at its landing the hidden face of the register it names takes the answer. -/
def Sys2Proof.Machine.dispenserServesHold : Prop :=
  ∀ (s : State) (l : Launch) (q : NtReq), s.launch = some l → l.ntq = [q] → q.answer = none → q.arrive < s.pcc →
    q.core = s.frame.cur.core → q.due ≤ s.core.cyc → (s.core.ctx q.ctx).ntWait = [(q.reg, q.sclk)] →
    (s.launches.filter fun x => x.part == l.part && x.tag == l.tag) = [l] →
    let d := dieOf q.core
    let r := SMap.get (0, 0) l.disp d
    let ans : W64 := if r.1 < r.2 then BitVec.ofNat 64 (tileOf l.lr.tiles r.1) else BitVec.ofNat 64 (2 ^ 63)
    let x := s.core.ctx q.ctx
    ∃ t : State, exec .dispenserAnswer s = .next t ∧ t.mem = s.mem ∧ t.pcc = s.pcc ∧
      (∃ l' : Launch, t.launch = some l' ∧ l'.ntq = [] ∧
        SMap.get (0, 0) l'.disp d = (if r.1 < r.2 then (r.1 + 1, r.2) else r)) ∧
      t.core.ctx q.ctx = { x with ntWait := [], landed := x.landed ++ [(1, 0x88 + q.reg, q.sclk, some ans)],
                                  cur := { x.cur with regs := x.cur.regs.landNt q.reg ans } } ∧
      (∀ c, c ≠ q.ctx → t.core.ctx c = s.core.ctx c) ∧ ∀ n, n ≠ q.core → t.coreAt n = s.coreAt n

namespace Sys2Proof.Machine

/-! ## The triggers of slot 6 (R188 to R210) -/

/-- The trigger's number of an engine, and its x and y ports: ME0's or ME1's (R191). -/
def mePortX (e : Bool) : Nat := if e then 0x102 else 0x100
def mePortY (e : Bool) : Nat := if e then 0x103 else 0x101

/-- Both forms of an engine's trigger answer the state its effect gives, with no rollback of the phase afterwards (R60), in a
user or a handler context as the trigger needs. -/
def meFires (handler : Bool) (port ext : Slot → Bool → Instr) (eff : Bool → TVal → State → State)
    (ok : Bool → TVal → State → Prop) : Prop :=
  (∀ (w : Slot) (e : Bool) (s : State), s.inHandler = handler → Runs w s → ok e (s.srcVal w.src) s →
    exec (port w e) s = .next (eff e (s.srcVal w.src) s).noRoll) ∧
  (∀ (w : Slot) (e : Bool) (x : Word24) (rest : List Word24) (s : State), s.inHandler = handler → RunsExt w x rest s →
    ok e (s.srcVal w.src) (armed x rest (mePortX e) (mePortY e) s) →
    exec (ext w e) s = .next (eff e (s.srcVal w.src) (armed x rest (mePortX e) (mePortY e) s)).noRoll)

/-- The engine, its state with another, and the cursor's context as a holder. -/
def engOf (s : State) (e : Bool) : Engine := s.core.eng e
def engPut (s : State) (e : Bool) (g : Engine) : State := s.setCore (s.core.setEng e g)
def selfHolder (s : State) : BitVec 3 := BitVec.ofNat 3 s.frame.cur.ctx
def holds (s : State) (e : Bool) : Prop := (engOf s e).holder = selfHolder s
def holdsOrFree (s : State) (e : Bool) : Prop := holds s e ∨ (engOf s e).holder = 7

/-- The supported pairs (R190) as formats A and B with their digits (R189); either order is supported. -/
def pairTable : List (Nat × Nat) := [(6, 6), (6, 4), (6, 5), (4, 4), (4, 5), (5, 5), (11, 4), (11, 5), (12, 4), (12, 5), (11, 11),
  (10, 11), (10, 10), (2, 2), (3, 3)]
def digitTable : List (Nat × Nat) := [(6, 1), (4, 2), (5, 2), (11, 2), (12, 2), (10, 4), (2, 4), (3, 6)]
/-- A legal configuration word (R193): reserved bits zero, a supported pair with its natural digits, scales only on formats
that may be scaled (R189). -/
def cfgLegal (c : Nat) : Prop :=
  let a := c % 16
  let b := bits c 4 4
  c < 2 ^ 16 ∧ ((a, b) ∈ pairTable ∨ (b, a) ∈ pairTable) ∧ (a, bits c 8 3) ∈ digitTable ∧ (b, bits c 11 3) ∈ digitTable ∧
    (bits c 14 1 = 1 → a ∈ [4, 5, 6, 11, 12]) ∧ (bits c 15 1 = 1 → b ∈ [4, 5, 6, 11, 12])

/-- A Larder slot's owner byte, and whether the cursor's context has claimed it for an engine (R32, R196). -/
def ownerOf (s : State) (slot : Nat) : Byte := SMap.get 0 s.core.rows.owner slot
def claimByte (s : State) (e : Bool) : Byte := BitVec.ofNat 8 (128 + 16 * (s.frame.cur.ctx % 8) + 8 * e.toNat)
def owned (s : State) (e : Bool) (slot : Nat) : Prop := ownerOf s slot = claimByte s e
/-- An engine is Busy with a routine that reads a slot. -/
def inUse (s : State) (e : Bool) (slot : Nat) : Prop :=
  (engOf s e).busy = true ∧ ∃ r, (engOf s e).run = some r ∧ slot ∈ r.reads

/-- CLAIM: a claimed byte; where the slot lies deeper than FLOOR its contents are exchanged with a slot that does not, which
holds the core's issue for 256 cycles (R196). -/
def claimOk (e : Bool) (t : TVal) (s : State) : Prop :=
  let l := (lo64 t).toNat
  holds s e ∧ l < 32 ∧ (ownerOf s l).toNat < 128 ∧
    (s.core.rows.floor < s.core.rows.slotDepth (s.core.rows.physSlot l) → s.core.rows.claimPartner.isSome = true)
def claimEff (e : Bool) (t : TVal) (s : State) : State :=
  let l := (lo64 t).toNat
  let r := s.core.rows
  let put := fun (x : Rows) => { x with owner := x.owner.put l (claimByte s e) }
  match (if r.floor < r.slotDepth (r.physSlot l) then r.claimPartner else none) with
  | some m => s.setCore { s.core with rows := put (r.swapSlots l m), stall := max s.core.stall (s.frame.cyc1 + 257) }
  | none => s.setCore { s.core with rows := put r }
/-- RELEASE clears V of the owner byte (R196). -/
def releaseEff (_ : Bool) (t : TVal) (s : State) : State :=
  let l := (lo64 t).toNat
  let r := s.core.rows
  s.setCore { s.core with rows := { r with owner := r.owner.put l (BitVec.ofNat 8 ((ownerOf s l).toNat % 128)) } }

/-- MPUT's x: slot x[4:0], row x[10:5] (R197). -/
def mexOf (s : State) (e : Bool) : Nat := (lo64 (s.opnd (mePortX e))).toNat
def mputOk (e : Bool) (t : TVal) (s : State) : Prop :=
  let c := ((engOf s e).cfg.getD 0).toNat
  let l := mexOf s e % 32
  holds s e ∧ mexOf s e < 2 ^ 11 ∧ owned s e l ∧ ¬inUse s e l ∧ (t.tag.toNat = c % 16 ∨ t.tag.toNat = bits c 4 4)
def mputEff (e : Bool) (t : TVal) (s : State) : State :=
  queued (s.frame.cyc1 + 2) (.mput (mexOf s e % 32) (bits (mexOf s e) 5 6) ((List.range 256).map fun i => byteOf t.val i)) s
/-- MLGET: row t[10:5] of slot t[4:0] at MEe.q, 6 schedule cycles on (R197). -/
def mlgetOk (e : Bool) (t : TVal) (s : State) : Prop :=
  let c := (lo64 t).toNat
  holds s e ∧ c < 2 ^ 11 ∧ owned s e (c % 32) ∧ ∀ w < 32, s.seenRows.badSlot (c % 32) (bits c 5 6) w = false
def mlgetEff (e : Bool) (t : TVal) (s : State) : State :=
  let c := (lo64 t).toNat
  let n := leNat ((List.range 256).map fun i => s.seenLarder.read (16384 * (c % 32) + 256 * bits c 5 6 + i))
  let s1 := s.setCore { s.core with rows := s.core.rows.fixSlotRow (c % 32) (bits c 5 6) }
  (s1.pushResult (if e then 0x99 else 0x98) 6 (plain n) 0).chargeHere 4 1
/-- MZERO: tile t[3:0], INT32 where t[4] is set; it lands in the core cycle after its bundle (R199). -/
def mzeroOk (e : Bool) (t : TVal) (s : State) : Prop :=
  let c := (lo64 t).toNat
  holdsOrFree s e ∧ c < 32 ∧ c % 16 < s.tiles ∧ (engOf s e).busy = false
def mzeroEff (e : Bool) (t : TVal) (s : State) : State :=
  let c := (lo64 t).toNat
  s.setCtx { s.ctx with mzWait := s.ctx.mzWait ++
    [{ tile := c % 16, eng := e, int := c / 16 == 1, issued := s.arch.sclk, due := s.frame.cyc1 + 1 }] }
/-- MGET: row t[9:4] of tile t[3:0] drained to format t[13:10], with the tensor scale t[31:16] where t[14] is set (R200). -/
def mgetOk (e : Bool) (t : TVal) (s : State) : Prop :=
  let c := (lo64 t).toNat
  let tag := (s.arch.regs.getAcc (c % 16)).vis.tag
  let phys := s.core.faceRow s.frame.cur.ctx s.tiles (c % 16) (bits c 4 6)
  holdsOrFree s e ∧ c < 2 ^ 32 ∧ bits c 15 1 = 0 ∧ c % 16 < s.tiles ∧
    ((tag = 1 ∧ 1 ≤ bits c 10 4 ∧ bits c 10 4 ≤ 5) ∨ (tag = 8 ∧ bits c 10 4 = 8 ∧ bits c 14 1 = 0)) ∧
    s.seenRows.badRow phys = false
def mgetEff (e : Bool) (q : TVal) (fl : Flags) (t : TVal) (s : State) : State :=
  let c := (lo64 t).toNat
  let phys := s.core.faceRow s.frame.cur.ctx s.tiles (c % 16) (bits c 4 6)
  (s.setCore { s.core with rows := s.core.rows.fixRow phys }).pushResult (if e then 0x99 else 0x98) 6 q fl
/-- A code and its flags are the product of two values drained to a format (R110, R104): a NaN is canonical, 0 times infinity
invalid, an infinity that of the format, E4M3's being its NaN; a finite product is rounded once. -/
def isDrained (f : Fmt) (x y : Fv) (r : Nat × Flags) : Prop :=
  match x, y with
  | .nan, _ => seesNan f r
  | _, .nan => seesNan f r
  | .inf a, .inf b => if f.hasInf = true then isInfinity f (a != b) r else invalid f r
  | .inf a, .fin d => if d.n = 0 ∨ f.hasInf = false then invalid f r else isInfinity f (a != d.neg) r
  | .fin d, .inf a => if d.n = 0 ∨ f.hasInf = false then invalid f r else isInfinity f (a != d.neg) r
  | .fin c, .fin d => ∃ z, isProduct c d z ∧ roundsDy f .rne z r
/-- What MGET of a control word delivers of an accumulator: 64 elements of the row in the drain format, higher bits zero (R200). -/
def mgetGives (t : TVal) (s : State) (q : TVal) (fl : Flags) : Prop :=
  let c := (lo64 t).toNat
  let a := (s.arch.regs.getAcc (c % 16)).vis
  let x := fun j => a.val.toNat / 2 ^ (2048 * bits c 4 6 + 32 * j) % 2 ^ 32
  let scale : Fv := if bits c 14 1 = 1 then bf16.value (bits c 16 16) else .fin { neg := false, n := 1, e := 0 }
  q.tag.toNat = bits c 10 4 ∧
    (a.tag = 8 → fl = 0 ∧ ∀ j < 64, el q 32 j = x j) ∧
    (a.tag = 1 → ∀ f, fmtOf q.tag = some f → q.val.toNat < 2 ^ (64 * f.w) ∧ ∃ g : Nat → Nat × Flags,
      (∀ j < 64, isDrained f (fp32.value (x j)) scale (g j) ∧ el q f.w j = (g j).1) ∧ fl = raisedBy 64 fun j => (g j).2)
/-- Both forms of MGET deliver such a row. -/
def mgetHolds : Prop :=
  (∀ (w : Slot) (e : Bool) (s : State), s.inHandler = false → Runs w s → mgetOk e (s.srcVal w.src) s →
    ∃ q fl, mgetGives (s.srcVal w.src) s q fl ∧ exec (.mget w e) s = .next (mgetEff e q fl (s.srcVal w.src) s).noRoll) ∧
  (∀ (w : Slot) (e : Bool) (x : Word24) (rest : List Word24) (s : State), s.inHandler = false → RunsExt w x rest s →
    let a := armed x rest (mePortX e) (mePortY e) s
    mgetOk e (s.srcVal w.src) a →
    ∃ q fl, mgetGives (s.srcVal w.src) a q fl ∧ exec (.mgetExt w e) s = .next (mgetEff e q fl (s.srcVal w.src) a).noRoll)
/-- MPSW: table entry x[5:0] where x[9] is set, else micro-word x[8:0]; held while the engine is Busy (R209). -/
def mpswOk (e : Bool) (_ : TVal) (s : State) : Prop :=
  mexOf s e < 2 ^ 10 ∧ (2 ^ 9 ≤ mexOf s e → bits (mexOf s e) 6 3 = 0)
def mpswEff (e : Bool) (t : TVal) (s : State) : State :=
  let g := engOf s e
  let i := mexOf s e % 2 ^ 9
  if g.busy = true ∨ g.mpsw ≠ [] then engPut s e { g with mpsw := g.mpsw ++ [(decide (2 ^ 9 ≤ mexOf s e), i, lo32 t)] }
  else if 2 ^ 9 ≤ mexOf s e then engPut s e { g with rtab := g.rtab.put i (t.val.setWidth 16) }
  else engPut s e { g with store := g.store.put i (lo32 t) }
/-- MDRAIN is noted for its bundle's flip (R194). -/
def mdrainEff (e : Bool) (_ : TVal) (s : State) : State :=
  { s with frame := { s.frame with mdrain := s.frame.mdrain ++ [e] } }
/-- LEND and RECLAIM: the binding bit of bank t[1:0] from the next bundle on (R210). -/
def bindEff (lent : Bool) (t : TVal) (s : State) : State :=
  let b := (lo64 t).toNat % 4
  let old := s.frame.newBind.getD s.arch.bind
  let now := (List.range 4).foldl (fun n i => if (if i = b then lent else old.getLsbD i) then n + 2 ^ i else n) 0
  { s with frame := { s.frame with newBind := some (BitVec.ofNat 4 now) } }

/-- MCALL's start offset as the carried word says it (R201). -/
def startAtOf (s : State) (w : Word24) : W64 := s.arch.sclk + BitVec.ofNat 64 ((w - s.arch.sclk.setWidth 24).toNat)

/-! ## Micro-operations (R206 to R208) -/

/-- The cursor's engine with the routine it runs. -/
def routine (s : State) (r : Routine) : Prop := (engOf s s.frame.cur.eng).run = some r
/-- A micro-operation of n cycles in a class taken: the routine's new state, and its first cycle charged (R206, R334). -/
def micros (s : State) (r r1 : Routine) (n cls : Nat) : State :=
  let e := s.frame.cur.eng
  let g := engOf s e
  engPut s e { g with run := some { r1 with left := n - 1, cls := cls }, lines := addCycle g.lines r.pc cls }
/-- The next micro-address. -/
def next1 (r : Routine) : Routine := { r with upc := r.upc + 1 }
/-- An index register, and vis(mp m). -/
def ix (r : Routine) (d : BitVec 3) : BitVec 16 := SMap.get 0 r.mx d.toNat
def mpVis (s : State) (m : BitVec 3) : W64 :=
  (SMap.get { vis := 0, hid := 0 } (engOf s s.frame.cur.eng).mp m.toNat : Face W64).vis
/-- An index register written. -/
def ixPut (r : Routine) (d : BitVec 3) (v : Nat) : Routine := { r with mx := r.mx.put d.toNat (BitVec.ofNat 16 v) }
/-- The open tile q of a routine. -/
def openOf (r : Routine) (q : BitVec 2) : Option OpenTile := r.tiles.find? fun t => t.q == q.toNat

/-! ### The checks of MCALL (R202) -/

/-- vis(mp m) of an engine. -/
def mpOf (g : Engine) (m : BitVec 3) : W64 := (SMap.get { vis := 0, hid := 0 } g.mp m.toNat : Face W64).vis
/-- The routine after a micro-operation, as far as the examination of its run goes; none where it is not legal there (R206). -/
def examined (g : Engine) (r : Routine) (i : Instr) : Option Routine :=
  match i with
  | .msela m => some (next1 { r with ad := some (mpOf g m) })
  | .mselb m => some (next1 { r with bd := some (mpOf g m) })
  | .mldx d m f => some (next1 (ixPut r d (bits (mpOf g m).toNat (16 * f.toNat) 16)))
  | .msetx d n => some (next1 (ixPut r d n.toNat))
  | .maddx d n => some (next1 (ixPut r d ((ix r d).toNat + n.toNat)))
  | .mloop d e =>
    if 2 ≤ r.loops.length then none
    else if ix r d = 0 then some { r with upc := e.toNat + 1 }
    else some (next1 { r with loops := { body := r.upc + 1, stop := e.toNat, count := (ix r d).toNat } :: r.loops })
  | .mnext =>
    match r.loops with
    | [] => none
    | l :: rest =>
      if l.stop ≠ r.upc then none
      else if 1 < l.count then some { r with loops := { l with count := l.count - 1 } :: rest, upc := l.body }
      else some (next1 { r with loops := rest })
  | .mblk f => if f.toNat ≤ 5 then some (next1 { r with blk := 2 ^ (3 + f.toNat) }) else none
  | .macc q d _ =>
    if (openOf r q).isNone = true ∧ (ix r d).toNat < 16 then
      some (next1 { r with tiles := r.tiles ++ [{ q := q.toNat, tile := (ix r d).toNat, val := 0 }] })
    else none
  | .mmac q _ _ _ _ => if r.ad.isSome = true ∧ r.bd.isSome = true ∧ (openOf r q).isSome = true then some (next1 r) else none
  | .mspr on => some (next1 { r with spr := on })
  | .mbz d t => some (if ix r d = 0 then { r with upc := t.toNat } else next1 r)
  | .mjmp t => some { r with upc := t.toNat }
  | .mwait _ => some (next1 r)
  | .mnop => some (next1 r)
  | _ => none
/-- The micro-operations of a run of at most n, each with the routine as it meets it, and the routine at MEND, or the micro-address at
which check 3 fails. -/
noncomputable def runOf (g : Engine) : Nat → Routine → List (Routine × Instr) × Except Nat Routine
  | 0, r => ([], .error r.upc)
  | n + 1, r =>
    if 512 ≤ r.upc then ([], .error 511)
    else
      match decodeMicro (SMap.get 0 g.store r.upc) with
      | none => ([], .error r.upc)
      | some .mend => ([], .ok r)
      | some i =>
        match examined g r i with
        | none => ([], .error r.upc)
        | some r1 => let t := runOf g n r1; ((r, i) :: t.1, t.2)
/-- A descriptor is valid (R195); one whose format has no width fails the check of its format instead. -/
def descriptorValid (d : Nat) : Prop :=
  let fmt := bits d 8 4
  let w := if fmt = 0 ∨ 13 ≤ fmt then 0 else tagWidth (BitVec.ofNat 4 fmt)
  d < 2 ^ 48 ∧ bits d 12 4 = 0 ∧ bits d 5 3 = 0 ∧ 1 ≤ bits d 32 16 ∧ bits d 32 16 ≤ 16384 ∧ 1 ≤ bits d 16 16 ∧ bits d 16 16 ≤ 32768 ∧
    bits d 32 16 * bits d 16 16 * w ≤ 131072 ∧ (w = 4 → bits d 16 16 % 2 = 0)
/-- An MMAC stays within its descriptors (R202, R204, R207); one with L = 0 does (assumption 92). -/
def staysWithin (r : Routine) (di dj dk dl : BitVec 3) : Prop :=
  let a := (r.ad.getD 0).toNat
  let b := (r.bd.getD 0).toNat
  let k := (ix r dk).toNat
  let l := (ix r dl).toNat
  l = 0 ∨ ((ix r di).toNat + 64 ≤ bits a 32 16 ∧ (ix r dj).toNat + 64 ≤ bits b 32 16 ∧ k + l ≤ bits b 16 16 ∧
    if r.spr then k % 4 = 0 ∧ l % 4 = 0 ∧ (k + l) / 2 ≤ bits a 16 16 else k + l ≤ bits a 16 16)
/-- The accumulate type of a configuration (R190). -/
def accumulates (c : Nat) : Tag :=
  if (c % 16 = 10 ∨ c % 16 = 11) ∧ (bits c 4 4 = 10 ∨ bits c 4 4 = 11) ∧ bits c 14 2 = 0 then 8 else 1

open scoped Classical in
/-- What checks 4 to 7 find at a micro-operation, with the number of the check: its error and its detail. -/
noncomputable def foundAt (s : State) (e : Bool) (r : Routine) (i : Instr) : List (Nat × Nat × W64) :=
  let g := engOf s e
  let c := (g.cfg.getD 0).toNat
  let slot := BitVec.ofNat 64 s.frame.cur.slot
  let descriptor := fun (d fmt : Nat) =>
    if ¬descriptorValid d then [(4, 0x0D, slot)] else if bits d 8 4 ≠ fmt then [(4, 0x08, slot)]
    else if owned s e (d % 32) then [] else [(5, 0x11, if e then 1 else 0)]
  match i with
  | .msela m => descriptor (mpOf g m).toNat (c % 16)
  | .mselb m => descriptor (mpOf g m).toNat (bits c 4 4)
  | .mmac _ di dj dk dl => if staysWithin r di dj dk dl then [] else [(6, 0x0D, slot)]
  | .macc _ d z =>
    let t := (ix r d).toNat
    if s.tiles ≤ t ∨ ∃ o ∈ r.tiles, o.tile = t then [(7, 0x0D, slot)]
    else if z = false ∧ (s.arch.regs.getAcc t).vis.tag ≠ accumulates c then [(7, 0x08, slot)] else []
  | _ => []
/-- The entries a run pops (R203, R207). -/
def popsIn (c : Nat) (l : List (Routine × Instr)) : Nat :=
  (l.map fun x => match x.2 with
    | .mmac _ _ _ _ dl => ((ix x.1 dl).toNat + x.1.blk - 1) / x.1.blk * (bits c 14 1 + bits c 15 1)
    | _ => 0).sum
open scoped Classical in
/-- The error of the first check of R202 that fails for an MCALL of routine rho with the carried word w, of an engine that its context
holds and that is not Busy; of one check's failures the first that the run meets. -/
noncomputable def callError (s : State) (e : Bool) (rho : Nat) (w : Word24) (r0 : Routine) : Option (Nat × W64) :=
  let g := engOf s e
  let entry := ((SMap.get 0 g.rtab rho : BitVec 16)).toNat
  let mark : W64 := if e then 1 else 0
  if entry / 2 ^ 9 ≠ 64 then some (0x12, mark + BitVec.ofNat 64 (65536 * (entry % 2 ^ 9)))
  else
    match runOf g 65536 r0 with
    | (_, .error a) => some (0x12, mark + BitVec.ofNat 64 (65536 * a))
    | (l, .ok _) =>
      let md := (s.arch.metaWord s.ctx.fetch.mdbuf).getD (0, false)
      let sparse := ∃ x ∈ l, x.2 = .mspr true
      let have_ := g.saffron.length + g.outLdsc
      let all := l.flatMap (fun x => foundAt s e x.1 x.2) ++
        (if sparse ∧ md.2 = true then [(8, 0x05, s.arch.mpc)] else []) ++
        (if sparse ∧ md.2 = false ∧ ∃ i < 8, 5 < bits md.1.toNat (4 * i) 4 then [(8, 0x13, mark)] else []) ++
        (if have_ < popsIn ((g.cfg.getD 0).toNat) l then [(9, if have_ = 0 then (0x14, mark) else (0x07, 0x1FF))] else []) ++
        (if 2 ^ 23 ≤ (w - s.arch.sclk.setWidth 24).toNat then [(10, 0x07, 0x1FF)] else [])
      (List.range 11).findSome? fun n => (all.find? fun x => x.1 == n).map (·.2)
/-- The routine an MCALL of rho with the word w is to run, before its run is examined (R201, R205). -/
def calledRoutine (s : State) (e : Bool) (rho : Nat) (w : Word24) : Routine :=
  { ctx := s.frame.cur.ctx, pc := s.frame.pc, sclk := s.arch.sclk, startAt := startAtOf s w,
    mdw := ((s.arch.metaWord s.ctx.fetch.mdbuf).getD (0, false)).1,
    upc := ((SMap.get 0 (engOf s e).rtab rho : BitVec 16)).toNat % 2 ^ 9 }
/-- MCALL of an engine that its context holds and that is not Busy: the error of its first failing check, or the engine Busy with its
routine, whose run names the slots it selects and the tiles it opens (R201, R202, R205). -/
noncomputable def mcallEff (e : Bool) (t : TVal) (s : State) : State :=
  match s.frame.rest with
  | [] => s
  | w :: rest =>
    let s1 := { s with frame := { s.frame with rest := rest } }
    let g := engOf s e
    let r := calledRoutine s1 e ((lo64 t).toNat % 64) w
    match callError s1 e ((lo64 t).toNat % 64) w r with
    | some x => s1.raise x.1 x.2
    | none =>
      let run := runOf g 65536 r
      let reads := run.1.flatMap fun x => match x.2 with
        | .msela m => [(mpOf g m).toNat % 32]
        | .mselb m => [(mpOf g m).toNat % 32]
        | _ => []
      let opens := match run.2 with
        | .ok q => q.tiles.map (·.tile)
        | .error _ => []
      engPut s1 e { g with busy := true, lines := addLine g.lines s.frame.pc, run := some { r with reads := reads, opens := opens } }

/-- The rows of a core after the writes of a context's tiles: those of the hidden faces, written whole, hold no error (R28, R249). -/
def tilesWritten (s : State) (ctx : Nat) (tiles : List Nat) (rows : Rows) : Prop :=
  let r := s.core.rows
  rows = { r with errs := rows.errs } ∧ ∀ x, x ∈ rows.errs ↔ x ∈ r.errs ∧ ∀ t ∈ tiles, ∀ i < 64,
    x.1 / 32 ≠ r.physRow (256 + 128 * (ctx * s.tiles + t) + (if ((s.core.ctx ctx).cur.regs.getAcc t).sw then 0 else 64) + i)

/-- Element (i, j) of a tile (R198). -/
def tile32 (t : Tile) (i j : Nat) : Nat := t.toNat / 2 ^ (2048 * i + 32 * j) % 2 ^ 32
/-- Core cycles of an MMAC of L elements, of which sparsity counts half (R188, R207). -/
def macCycles (cfg : W64) (l : Nat) (spr : Bool) : Nat :=
  let rate := 128 * (128 / (bits cfg.toNat 8 3 * bits cfg.toNat 11 3))
  max 1 ((4096 * (if spr then l / 2 else l) + rate - 1) / rate)

end Sys2Proof.Machine

/-- R190 to R200, R209: MCFG, MDRAIN, CLAIM, RELEASE, MPUT, MLGET, MZERO, MGET and MPSW where their holder rule and operands
are in order, each in its own context: what each writes, and nothing else. -/
def Sys2Proof.Machine.engineCommandResultsHold : Prop :=
  meFires false .mcfg .mcfgExt (fun e t s => engPut s e { engOf s e with holder := selfHolder s, cfg := some (lo64 t) })
    (fun e t s => s.frame.cur.ctx < 4 ∧ (engOf s e).holder = 7 ∧ cfgLegal (lo64 t).toNat) ∧
  meFires false (fun w e => .mdrain w.gd e) .mdrainExt mdrainEff
    (fun e _ s => holdsOrFree s e ∧ asks s) ∧
  meFires false .claim .claimExt claimEff claimOk ∧
  meFires false .release .releaseExt releaseEff
    (fun e t s => holds s e ∧ (lo64 t).toNat < 32 ∧ owned s e (lo64 t).toNat ∧ ¬inUse s e (lo64 t).toNat) ∧
  meFires false .mput .mputExt mputEff mputOk ∧ meFires false .mlget .mlgetExt mlgetEff mlgetOk ∧
  meFires false .mzero .mzeroExt mzeroEff mzeroOk ∧ mgetHolds ∧
  meFires true .mpsw .mpswExt mpswEff mpswOk

/-- R201, R202, R210: MCALL of an engine its context holds that is not Busy raises the error of the first check that fails, and where all
pass makes the engine Busy with its routine; LEND and RECLAIM bind a bank from the
next bundle on, where no slot of the bundle writes it. Nothing else changes. -/
def Sys2Proof.Machine.callAndBindResultsHold : Prop :=
  meFires false .mcall .mcallExt mcallEff (fun e _ s => holds s e ∧ (engOf s e).busy = false ∧ s.frame.rest ≠ []) ∧
  meFires false (fun w _ => .lend w) (fun w _ => .lendExt w) (fun _ t s => bindEff true t s)
    (fun e t s => e = false ∧ s.frame.banks.getLsbD ((lo64 t).toNat % 4) = false) ∧
  meFires false (fun w _ => .reclaim w) (fun w _ => .reclaimExt w) (fun _ t s => bindEff false t s)
    (fun e t s => e = false ∧ s.frame.banks.getLsbD ((lo64 t).toNat % 4) = false)

/-- R192, R193, R202: in either form, MCFG of an engine that another context holds raises an engine-holder error, of one its own context
holds, or with a word that is not legal, an engine-configuration error; MCALL of an engine another context holds raises
engine-holder, of one nobody holds engine-configuration, of one that is Busy engine-busy. Nothing else changes. -/
def Obligations.EngineRefusals : Prop :=
  let another := fun (s : State) (e : Bool) => (engOf s e).holder ≠ 7 ∧ (engOf s e).holder ≠ selfHolder s
  let err := fun (n : Nat) (e : Bool) (_ : TVal) (s : State) => s.raise n (if e then 1 else 0)
  let call := fun (n : Nat) (e : Bool) (t : TVal) (s : State) => err n e t { s with frame := { s.frame with rest := s.frame.rest.drop 1 } }
  meFires false .mcfg .mcfgExt (err 0x0E) (fun e _ s => s.frame.cur.ctx < 4 ∧ another s e) ∧
  meFires false .mcfg .mcfgExt (err 0x0F) (fun e t s => s.frame.cur.ctx < 4 ∧
    ((engOf s e).holder = selfHolder s ∨ ((engOf s e).holder = 7 ∧ ¬cfgLegal (lo64 t).toNat))) ∧
  meFires false .mcall .mcallExt (call 0x0E) (fun e _ s => s.frame.cur.ctx < 4 ∧ s.frame.rest ≠ [] ∧ another s e) ∧
  meFires false .mcall .mcallExt (call 0x0F) (fun e _ s => s.frame.cur.ctx < 4 ∧ s.frame.rest ≠ [] ∧ (engOf s e).holder = 7) ∧
  meFires false .mcall .mcallExt (call 0x10) (fun e _ s => s.frame.cur.ctx < 4 ∧ s.frame.rest ≠ [] ∧
    (engOf s e).holder = selfHolder s ∧ (engOf s e).busy = true)

/-- R206: each control micro-operation takes its cycles in its class and leaves the routine as its row says: the descriptors,
the index registers, the micro-loops, BLK, the tiles it opens, the sparsity switch and the micro-address; nothing else of
the machine changes. -/
def Obligations.MicroControlResults : Prop :=
  ∀ (s : State) (r : Routine), routine s r →
    (∀ m, exec (.msela m) s = .next (micros s r (next1 { r with ad := some (mpVis s m) }) 8 1)) ∧
    (∀ m, exec (.mselb m) s = .next (micros s r (next1 { r with bd := some (mpVis s m) }) 8 1)) ∧
    (∀ d m f, exec (.mldx d m f) s = .next (micros s r (next1 (ixPut r d (bits (mpVis s m).toNat (16 * f.toNat) 16))) 1 0)) ∧
    (∀ d i, exec (.msetx d i) s = .next (micros s r (next1 (ixPut r d i.toNat)) 1 0)) ∧
    (∀ d i, exec (.maddx d i) s = .next (micros s r (next1 (ixPut r d ((ix r d).toNat + i.toNat))) 1 0)) ∧
    (∀ d e, r.loops.length < 2 → exec (.mloop d e) s = .next (micros s r (if ix r d = 0 then { r with upc := e.toNat + 1 }
      else next1 { r with loops := { body := r.upc + 1, stop := e.toNat, count := (ix r d).toNat } :: r.loops }) 1 0)) ∧
    (∀ l rest, r.loops = l :: rest → l.stop = r.upc → exec .mnext s = .next (micros s r (if 1 < l.count
      then { r with loops := { l with count := l.count - 1 } :: rest, upc := l.body } else next1 { r with loops := rest }) 1 0)) ∧
    (∀ f, f.toNat ≤ 5 → exec (.mblk f) s = .next (micros s r (next1 { r with blk := 2 ^ (3 + f.toNat) }) 1 0)) ∧
    (∀ q d z, openOf r q = none → (ix r d).toNat < 16 →
      (z = true ∨ s.core.rows.errs = []) →
      let v := if z then 0 else ((s.core.ctx r.ctx).cur.regs.getAcc (ix r d).toNat).vis.val
      let o : OpenTile := { q := q.toNat, tile := (ix r d).toNat, val := v }
      exec (.macc q d z) s = .next (micros s r (next1 { r with tiles := r.tiles ++ [o] }) 1 0)) ∧
    (∀ on, exec (.mspr on) s = .next (micros s r (next1 { r with spr := on }) 1 0)) ∧
    (∀ d t, exec (.mbz d t) s = .next (micros s r (if ix r d = 0 then { r with upc := t.toNat } else next1 r) 1 0)) ∧
    (∀ t, exec (.mjmp t) s = .next (micros s r { r with upc := t.toNat } 1 0)) ∧
    (∀ n, exec (.mwait n) s = .next (micros s r (next1 r) (n.toNat + 1) 2)) ∧
    exec .mnop s = .next (micros s r (next1 r) 1 0)

namespace Sys2Proof.Machine

/-! ## The products of an MMAC (R107 to R109, R204, R207) -/

/-- The exact value of an element, and of an integer one. -/
def valueOf (x : SrcEl) : Fv :=
  match x with
  | .flt v => v
  | .int z => .fin (dyOf z)
def intOf (x : SrcEl) : Int :=
  match x with
  | .flt _ => 0
  | .int z => z
/-- The exact product of two values; it is NaN for a NaN, and for 0 and an infinity. -/
def times (x y : Fv) : Fv :=
  match x, y with
  | .nan, _ => .nan
  | _, .nan => .nan
  | .inf a, .inf b => .inf (a != b)
  | .inf a, .fin d => if d.n = 0 then .nan else .inf (a != d.neg)
  | .fin d, .inf a => if d.n = 0 then .nan else .inf (a != d.neg)
  | .fin c, .fin d => .fin { neg := c.neg != d.neg, n := c.n * d.n, e := c.e + d.e }
/-- Factors that hold a zero and an infinity. -/
def pairsZero (l : List Fv) : Prop := (∃ d : Dy, .fin d ∈ l ∧ d.n = 0) ∧ ∃ b, .inf b ∈ l
/-- A term of an element's sum: the scales of its block and its two elements, each with whether its pair is malformed. -/
structure MacTerm where
  sa : Fv
  sb : Fv
  a : SrcEl × Bool
  b : SrcEl × Bool
/-- Its value, and whether it pairs 0 with an infinity: in the product of its scales, or among that, A and B (R108). -/
def MacTerm.value (t : MacTerm) : Fv := times (times (times t.sa t.sb) (valueOf t.a.1)) (valueOf t.b.1)
def MacTerm.pairs (t : MacTerm) : Prop := pairsZero [t.sa, t.sb] ∨ pairsZero [times t.sa t.sb, valueOf t.a.1, valueOf t.b.1]
/-- A finite value is the exact sum of finite terms; a zero sum is -0 where every term is, else +0 (R107). -/
def isExactSum (v : List Fv) (d : Dy) : Prop :=
  (∀ e : Int, e ≤ d.e → (∀ c : Dy, .fin c ∈ v → e ≤ c.e) → d.at e = (v.map fun x => match x with
    | .fin c => c.at e
    | _ => 0).sum) ∧
  (d.n = 0 → (d.neg = true ↔ ∀ c : Dy, .fin c ∈ v → c.n = 0 ∧ c.neg = true))
open scoped Classical in
/-- The exact sum of a chunk's terms, special values first, and the flags they raise: NV for a malformed pair, a term that pairs 0 with an
infinity, and infinities of both signs; NANSEEN for a NaN (R95, R108). -/
def isChunk (l : List MacTerm) (x : Fv) (fl : Flags) : Prop :=
  let v := l.map MacTerm.value
  let both := .inf true ∈ v ∧ .inf false ∈ v
  (x = .nan ↔ .nan ∈ v ∨ both) ∧
    (x ≠ .nan → (∀ b, .inf b ∈ v → x = .inf b) ∧ ((∀ b, .inf b ∉ v) → ∃ d, x = .fin d ∧ isExactSum v d)) ∧
    fl = (if both ∨ ∃ t ∈ l, t.a.2 = true ∨ t.b.2 = true ∨ t.pairs then Flags.nv else 0) ||| (if x = .nan then Flags.nanSeen else 0)
/-- A chunk's sum added to an FP32 accumulator, rounded once to nearest even (R99, R107, R108). -/
def isAdded (acc : Nat) (x : Fv) (r : Nat × Flags) : Prop :=
  match fp32.value acc, x with
  | .nan, _ => seesNan fp32 r
  | _, .nan => seesNan fp32 r
  | .inf a, .inf b => if a = b then isInfinity fp32 a r else invalid fp32 r
  | .inf a, .fin _ => isInfinity fp32 a r
  | .fin _, .inf b => isInfinity fp32 b r
  | .fin c, .fin d => ∃ z, isSum .rne c d z ∧ roundsDy fp32 .rne z r
/-- An FP32 element after chunks of terms in increasing k, one rounding each, and the flags of all (R107; assumption 62). -/
def isAccumulated : Nat → List (List MacTerm) → Nat × Flags → Prop
  | acc, [], r => r = (acc, 0)
  | acc, c :: rest, r => ∃ x fl a b, isChunk c x fl ∧ isAdded acc x a ∧ isAccumulated a.1 rest b ∧ r = (b.1, fl ||| a.2 ||| b.2)

/-- Where A stores the element k of a row under a metadata word; none where it is zero (R204). -/
def storedAt (w : W32) (k : Nat) : Option Nat :=
  let p := [(0, 1), (0, 2), (0, 3), (1, 2), (1, 3), (2, 3)].getD (bits w.toNat (4 * (k % 32 / 4)) 4) (2, 3)
  if k % 4 = p.1 then some (k / 4 * 2) else if k % 4 = p.2 then some (k / 4 * 2 + 1) else none
/-- Element (m, k) of the operand a descriptor names, stored whole or under a metadata word (R195, R204). -/
def operandAt (s : State) (d : W64) (f : Tag) (sparse : Option W32) (m k : Nat) : SrcEl × Bool :=
  let at' := fun k => sourceOf f (slotBits s.core.larder (d.toNat % 32)) (m * bits d.toNat 16 16 + k)
  match sparse with
  | none => at' k
  | some w =>
    match storedAt w k with
    | some j => at' j
    | none => (.int 0, false)
/-- Blocks of an MMAC of l elements; entries popped for each (R207). -/
def macBlocks (r : Routine) (l : Nat) : Nat := (l + r.blk - 1) / r.blk
def macScales (cfg : W64) : Nat := bits cfg.toNat 14 1 + bits cfg.toNat 15 1
/-- The term of position p of element (i, j) (R207): an operand without scales has the scale 1, and so has an entry that is not there. -/
def macTerm (s : State) (r : Routine) (cfg a b : W64) (i0 j0 k0 l i j p : Nat) : MacTerm :=
  let popped := (engOf s s.frame.cur.eng).saffron.take (macBlocks r l * macScales cfg)
  let entry := fun n => match popped[n]? with
    | some x => valueOf (sourceOf x.1 x.2.toNat 0).1
    | none => .fin { neg := false, n := 1, e := 0 }
  let one : Fv := .fin { neg := false, n := 1, e := 0 }
  { sa := if bits cfg.toNat 14 1 = 1 then entry (p / r.blk * macScales cfg) else one,
    sb := if bits cfg.toNat 15 1 = 1 then entry (p / r.blk * macScales cfg + bits cfg.toNat 14 1) else one,
    a := operandAt s a (cfg.setWidth 4) (if r.spr then some r.mdw else none) (i0 + i) (k0 + p),
    b := operandAt s b (cfg.extractLsb' 4 4) none (j0 + j) (k0 + p) }
/-- The tile an MMAC leaves, and its flags: INT32 elements take the exact sum modulo 2^32 and raise none (R109); FP32 elements take their
chunks of 32 from k0, and the flags are those of all (R107). -/
def isProductTile (int : Bool) (term : Nat → Nat → Nat → MacTerm) (l : Nat) (t v : Tile) (fl : Flags) : Prop :=
  if int then fl = 0 ∧ ∀ i < 64, ∀ j < 64, tile32 v i j = code 32 (Int.ofNat (tile32 t i j) +
    ((List.range l).map fun p => intOf (term i j p).a.1 * intOf (term i j p).b.1).sum)
  else
    let chunks := fun i j => (List.range ((l + 31) / 32)).map fun c => (List.range (min 32 (l - 32 * c))).map fun p => term i j (32 * c + p)
    ∃ g : Nat → Nat → Nat × Flags, fl = raisedBy 4096 (fun n => (g (n / 64) (n % 64)).2) ∧
      ∀ i < 64, ∀ j < 64, isAccumulated (tile32 t i j) (chunks i j) (g i j) ∧ tile32 v i j = (g i j).1

/-- The first bit of the element (m, k) of an operand in its slot (R195). -/
def macBit (d : W64) (f : Tag) (m k : Nat) : Nat := (m * bits d.toNat 16 16 + k) * tagWidth f
/-- The Larder rows that hold elements of 64 matrix rows of an operand (assumption 36). -/
def rowsRead (d : W64) (f : Tag) (m0 k0 n : Nat) : Nat :=
  ((List.range 64).filter fun row => (List.range 64).any fun i => (List.range n).any fun p =>
    macBit d f (m0 + i) (k0 + p) / 2048 == row).length
/-- An error key of a core lies in one of those rows. -/
def inRowsRead (s : State) (d : W64) (f : Tag) (m0 k0 n key : Nat) : Prop :=
  ∃ i < 64, ∃ p < n, let row := macBit d f (m0 + i) (k0 + p) / 2048
    row < 64 ∧ key / 32 = 64 * (512 + s.core.rows.physSlot (d.toNat % 32)) + row
/-- One of those elements is stored in a word that holds an uncorrectable error. -/
def meetsLoss (s : State) (d : W64) (f : Tag) (m0 k0 n : Nat) : Prop :=
  ∃ i < 64, ∃ p < n, let x := macBit d f (m0 + i) (k0 + p)
    s.core.rows.badSlot (d.toNat % 32) (x / 2048) (x % 2048 / 64) = true

end Sys2Proof.Machine

/-- R107 to R109, R204, R207: MMAC on an open tile. With L = 0 it takes a cycle and nothing else. Else it pops its blocks' scales, adds
to each element of the tile the products of its L positions, A taken as stored whole or sparse, in INT32 modulo 2^32 or in FP32 chunk by
chunk with one rounding each, and raises their flags in its issue phase; it notes an
uncorrectable error its operands' words hold and corrects the single-bit errors of the rows it reads; it takes its core
cycles, and charges its products and the rows it reads. Nothing else changes. That a chunk with a malformed
pair also raises the flags of its own addition is assumption 62, what is charged assumption 36, an MMAC of no elements assumption 92. -/
def Obligations.MmacResults : Prop :=
  ∀ (s : State) (r : Routine) (q : BitVec 2) (di dj dk dl : BitVec 3) (o : OpenTile) (a b : W64), routine s r →
    openOf r q = some o → r.ad = some a → r.bd = some b → (r.spr = true → ∀ i < 8, bits r.mdw.toNat (4 * i) 4 ≤ 5) →
    let e := s.frame.cur.eng
    let g := engOf s e
    let cfg := g.cfg.getD 0
    let l := (ix r dl).toNat
    let i0 := (ix r di).toNat
    let j0 := (ix r dj).toNat
    let k0 := (ix r dk).toNat
    let n := if r.spr then l / 2 else l
    let ka := if r.spr then k0 / 2 else k0
    let fa : Tag := cfg.setWidth 4
    let fb : Tag := cfg.extractLsb' 4 4
    (l = 0 → exec (.mmac q di dj dk dl) s = .next (micros s r (next1 r) 1 0)) ∧
    (l ≠ 0 → ∃ (v : Tile) (fl : Flags) (rows : Rows) (d : Option W64),
      isProductTile (accumulates cfg.toNat == 8) (macTerm s r cfg a b i0 j0 k0 l) l o.val v fl ∧
      rows = { s.core.rows with errs := rows.errs } ∧
      (∀ x, x ∈ rows.errs ↔ x ∈ s.core.rows.errs ∧
        (x.2 = true ∨ ¬(inRowsRead s a fa i0 ka n x.1 ∨ inRowsRead s b fb j0 k0 l x.1))) ∧
      (d.isSome = true ↔ r.dataLoss.isSome = true ∨ meetsLoss s a fa i0 ka n ∨ meetsLoss s b fb j0 k0 l) ∧
      (r.dataLoss.isSome = true → d = r.dataLoss) ∧
      let x := s.core.ctx r.ctx
      let g1 := { g with
        run := some { next1 r with tiles := r.tiles.map (fun t => if t.q == q.toNat then { t with val := v } else t), dataLoss := d,
                                   left := macCycles cfg l r.spr - 1, cls := 0 },
        lines := addCycle g.lines r.pc 0, saffron := g.saffron.drop (macBlocks r l * macScales cfg) }
      let k1 := ({ s.core with rows := rows }).setEng e g1
      let k2 := if x.status = .stopped then k1
        else k1.setCtx r.ctx { x with cur := x.cur.raiseFlags fl (s.enablesOf s.frame.cur.core r.ctx) }
      exec (.mmac q di dj dk dl) s = .next (((s.setCore k2).chargeHere 0
        (4096 * n * (bits cfg.toNat 8 3 * bits cfg.toNat 11 3))).chargeHere 4 (rowsRead a fa i0 ka n + rowsRead b fb j0 k0 l)))

/-- R199, R203, R206, R208, R209, R250: MEND takes 4 cycles for each open tile, at least 1, and at their end each open tile's value
lands on its register's hidden face with the accumulate tag, the rows it writes hold no error, and the engine is no longer Busy; a
routine that has read an error stops its context in the cycle before, and lands nothing; a routine starts with 8 fill cycles; an MZERO
due lands a zero tile; held MPSWs are written in order once the engine is not Busy. -/
def Obligations.EngineWork : Prop :=
  (∀ (s : State) (r : Routine), routine s r → r.done = false → r.ending = false →
    let n := max 1 (4 * r.tiles.length)
    exec .mend s = .next (micros s r { r with ending := true, done := n == 1 } n 3)) ∧
  (∀ (s : State) (r : Routine), routine s r → r.done = false → r.ending = true →
    let e := s.frame.cur.eng
    exec .mend s = .next (engPut s e { engOf s e with run := some { r with done := r.left == 0 || r.dataLoss.isSome } })) ∧
  (∀ (s : State) (r : Routine) (d : W64), routine s r → r.done = true → r.dataLoss = some d → r.ctx < 4 →
    (s.core.ctx r.ctx).status ≠ .stopped → (s.core.ctx r.ctx).status ≠ .absent →
    ∃ t : State, exec .mend s = .next t ∧ (engOf t s.frame.cur.eng).busy = false ∧ (engOf t s.frame.cur.eng).run = none ∧
      (t.core.ctx r.ctx).status = .stopped ∧ (t.core.ctx r.ctx).cur.regs = (s.core.ctx r.ctx).cur.regs) ∧
  (∀ (s : State) (r : Routine), routine s r → r.dataLoss = none → r.done = true →
    (s.core.ctx r.ctx).status ≠ .stopped → (s.core.ctx r.ctx).status ≠ .absent →
    let e := s.frame.cur.eng
    let g := engOf s e
    let x := s.core.ctx r.ctx
    let tag : Tag := if accTag (g.cfg.getD 0) = 8 then 8 else 1
    let n := if e then 5 else 4
    let done := if r.tiles = [] then [(n, 0x1FF, r.sclk, none)] else r.tiles.map fun t => (n, 0xC0 + t.tile, r.sclk, none)
    let regs := r.tiles.foldl (fun a t => a.landAcc t.tile { val := t.val, tag := tag }) x.cur.regs
    ∃ rows : Rows, tilesWritten s r.ctx (r.tiles.map (·.tile)) rows ∧
      exec .mend s = .next (s.setCore (({ s.core with rows := rows }.setEng e { g with busy := false, run := none }).setCtx r.ctx
        { x with cur := { x.cur with regs := regs }, landed := x.landed ++ done }))) ∧
  (∀ (s : State) (r : Routine), routine s r →
    let e := s.frame.cur.eng
    let g := engOf s e
    let begun := { r with started := true, fill := 8,
                             startAt := (s.core.ctx r.ctx).cur.sclk + (if (s.core.ctx r.ctx).split.isSome then 1 else 0) }
    (r.started = false → exec .engineStart s = .next (engPut s e { g with lines := addCycle g.lines r.pc 2, run := some begun })) ∧
    (r.started = true → exec .engineStart s = .next s)) ∧
  (∀ (s : State) (z : ZeroWait), s.ctx.mzWait = [z] →
    let x := s.ctx
    let cur := { x.cur with regs := x.cur.regs.landAcc z.tile { val := 0, tag := if z.int then 8 else 1 } }
    let done := x.landed ++ [(if z.eng then 5 else 4, 0xC0 + z.tile, z.issued, none)]
    (z.due ≤ s.core.cyc → z.eng = s.frame.cur.eng → ∃ rows : Rows, tilesWritten s s.frame.cur.ctx [z.tile] rows ∧
      exec .mzeroLand s = .next (s.setCore ({ s.core with rows := rows }.setCtx s.frame.cur.ctx
        { x with mzWait := [], landed := done, cur := cur }))) ∧
    (s.core.cyc < z.due ∨ z.eng ≠ s.frame.cur.eng → exec .mzeroLand s = .next s)) ∧
  (∀ s : State,
    let e := s.frame.cur.eng
    let g := engOf s e
    let put := fun (g : Engine) (m : Bool × Nat × W32) =>
      if m.1 then { g with rtab := g.rtab.put m.2.1 (m.2.2.setWidth 16) } else { g with store := g.store.put m.2.1 m.2.2 }
    (g.busy = true → exec .mpswDeferredWrite s = .next s) ∧
    (g.busy = false → exec .mpswDeferredWrite s = .next (engPut s e { g.mpsw.foldl put g with mpsw := [] })))

namespace Sys2Proof.Machine

/-! ## Bundles and phases (R40 to R61, R85, R86, R302, R318) -/

/-- The cursor's core and context in a state. -/
def coreNo (s : State) : Nat := s.frame.cur.core
def ctxNo (s : State) : Nat := s.frame.cur.ctx

/-- A flip with nothing to follow it: no safe point, block, halt, return or drain. -/
def plainFlip (fi : FlipInfo) : Prop :=
  fi.safe = none ∧ fi.block = none ∧ fi.halt = false ∧ fi.eret = none ∧ fi.mdrain = []
/-- A user context is at its flip, with no event recorded and no write of its phase outstanding. -/
def atFlip (s : State) (fi : FlipInfo) : Prop :=
  ctxNo s < 4 ∧ s.ctx.flip = some fi ∧ fi.last ≤ s.core.cyc ∧ s.core.outstanding (ctxNo s) = []
def noEvent (s : State) : Prop :=
  s.arch.trapCount = 0 ∧ s.arch.arith = 0 ∧ s.core.hitsOf (ctxNo s) = 0

/-- The faces of a register after a flip: exchanged where it was written (R41). -/
def swapped {α : Type} (f : Face α) : Face α :=
  if f.wr then { vis := f.hid, hid := f.vis, wr := false, sw := !f.sw } else f
/-- FLG after a flip (R20). -/
def flgAfter (f : FlgReg) : FlgReg :=
  if f.acc = 0 ∧ f.clr = 0 then { f with wr := false }
  else { vis := BitVec.ofNat 32 ((f.vis.toNat &&& (2 ^ 32 - 1 - f.clr.toNat)) ||| f.acc.toNat), hid := f.vis }
/-- A context's registers after its flip: every written register's faces exchanged, FLG by its rule; vis(p15) is the
governor's (R349). -/
def flipped (r q : RegFile) (p15 : Bool) : Prop :=
  (∀ n, q.getS n = swapped (r.getS n)) ∧ (∀ n, q.getA n = swapped (r.getA n)) ∧ (∀ n, q.getV n = swapped (r.getV n)) ∧
    (∀ n, n ≠ 15 → q.getP n = swapped (r.getP n)) ∧ (q.getP 15).vis = p15 ∧ (∀ n, q.getM n = swapped (r.getM n)) ∧
    (∀ n, q.getNt n = swapped (r.getNt n)) ∧ (∀ n, q.getAm n = swapped (r.getAm n)) ∧
    (∀ n, q.getAcc n = swapped (r.getAcc n)) ∧ q.flg = flgAfter r.flg ∧ q.grp = r.grp
/-- What a flip leaves as it was; the CATOMs its context has issued are no longer those of the phase (R181). -/
def flipFrame (s t : State) : Prop :=
  t.pcc = s.pcc ∧ t.mem = s.mem ∧ t.launches = s.launches ∧ t.parts = s.parts ∧ t.tx = s.tx ∧ t.dumps = s.dumps ∧
    (∀ n, n ≠ coreNo s → t.coreAt n = s.coreAt n) ∧ (∀ c, c ≠ ctxNo s → t.core.ctx c = s.core.ctx c) ∧
    t.core.scratch = s.core.scratch ∧ t.core.larder = s.core.larder ∧ t.core.accs = s.core.accs ∧
    t.core.ce = { s.core.ce with catoms := s.core.ce.catoms.map fun m => if m.ctx = ctxNo s then { m with old := true } else m } ∧
    t.core.rows = s.core.rows ∧ t.core.pwr = s.core.pwr ∧ t.core.svc = s.core.svc ∧ t.core.issuing = s.core.issuing ∧
    t.core.hold = s.core.hold ∧ t.core.stall = s.core.stall

/-- The watchpoints that hold a hit for a context, a bit each (R184). -/
def hitBits (s : State) (c : Nat) : Nat :=
  ((List.range 4).map fun i => if ((SMap.get {} s.core.wps i : Watchpoint).hits.getLsbD c) then 2 ^ i else 0).sum
/-- The launch on the cursor's core is being pre-empted, no step of it running; it has been cancelled (R292, R305). -/
def preempted (s : State) : Prop := ∃ l, s.launchAt (coreNo s) = some l ∧ l.preempt = true ∧ l.step = none
def cancelled (s : State) : Prop := ∃ l, s.launchAt (coreNo s) = some l ∧ l.cancel = true
/-- The handler's standing when it has been entered for a context (R318). -/
def handlerAt (t : State) (u : Nat) (hentry : W64) : Prop :=
  let h := t.core.ctx 4
  t.core.svc.served = some u ∧ t.core.issuing = some 4 ∧ (t.core.ctx u).status = .inService ∧ h.status = .inService ∧
    h.cur.pc = hentry ∧ h.cur.sclk = 0 ∧ h.cur.hsel = 0 ∧ h.cur.loops = []

/-- Bytes that crossed a die boundary counted in a partition's block on a die (R352): only the values of its counters change. -/
def countsOnly (s : State) (part die : Nat) (t : State) : Prop :=
  t = { s with tx := t.tx } ∧ (∀ n, n ≠ 3 * part + die → SMap.find t.tx n = SMap.find s.tx n) ∧
    ∃ c : SMap Counter, t.txAt part die = { s.txAt part die with counters := c } ∧
      ∀ i, ∃ v, SMap.get ({} : Counter) c i = { SMap.get ({} : Counter) (s.txAt part die).counters i with val := v }

/-- No stop of a context has been marked in the present core cycle. -/
def unmarked (s : State) (c : Nat) : Prop := ∀ m ∈ s.core.marks, m.ctx ≠ c
/-- A stop of a context marked for the capture at the end of the cycle, which the state after has before it: cause, detail,
code address and SCLK; what other contexts' marks say stands. -/
def marked (s t : State) (c cause : Nat) (detail pc sclk : W64) : Prop :=
  (∃ m ∈ t.core.marks, m.ctx = c ∧ (StopInfo.join m.infos).cause = (cause, detail) ∧ (StopInfo.join m.infos).pc = pc ∧
    (StopInfo.join m.infos).sclk = sclk ∧ m.snap.status = .stopped) ∧
    (∀ m ∈ t.core.marks, m.ctx ≠ c → m ∈ s.core.marks) ∧ (∀ m ∈ s.core.marks, m ∈ t.core.marks) ∧
    (.settle (coreNo s) ∈ t.todo ∨ .capture (coreNo s) ∈ t.todo)

/-- A context's state as it stands when its bundle is fetched: the results due at its SCLK are in their ports (R45). -/
def issueState (s : State) (c : Nat) : State :=
  let cur : Cursor := { part := s.partOfCore (coreNo s), die := dieOf (coreNo s), core := coreNo s, ctx := c }
  let s1 : State := { s with frame := { cur := cur } }
  s1.setArch (s1.arch.deliver s1.arch.sclk (s1.enablesOf (coreNo s) c))
/-- User context c of the cursor's core may issue, and its fetch gives a packet (R55, R82, R302). -/
def mayIssue (s : State) (c : Nat) (p : Packet) : Prop :=
  c < 4 ∧ s.core.splitNow = none ∧ s.core.hold ≤ s.core.cyc ∧ s.core.stall ≤ s.core.cyc ∧ s.pick (coreNo s) = (some c, s) ∧ (s.core.ctx c).first ≤ s.core.cyc ∧
    (s.core.ctx c).status = .ready ∧ (issueState s c).fetch = (.packet p, issueState s c)

end Sys2Proof.Machine

/-- R40, R45, R46: the results due at the context's SCLK leave the pipelines for their ports: a port takes the last due of
its results, a port with none due keeps its value, a result not due stays in flight; an am update due lands on its hidden
face. -/
def Obligations.PhaseLandings : Prop :=
  (∀ s : State, ∃ t : State, exec .resultDelivery s = .next t ∧
    (let due := fun (r : InFlight) => decide (r.due.toNat ≤ s.arch.sclk.toNat)
     (∃ a, t = s.setArch a) ∧
     (∀ r, r ∈ t.arch.pipe ↔ r ∈ s.arch.pipe ∧ due r = false) ∧
     (∀ p, (∀ r ∈ s.arch.pipe, due r = true → r.port ≠ p) → t.arch.port p = s.arch.port p) ∧
     (∀ r ∈ s.arch.pipe, due r = true →
       (∀ q ∈ s.arch.pipe, due q = true → q.port = r.port → q ≠ r → q.due.toNat < r.due.toNat) →
       t.arch.port r.port = r.res))) ∧
  (∀ (s : State) (u : AmWrite), s.arch.amPend = [u] → u.due.toNat ≤ s.arch.sclk.toNat →
    let x := s.ctx
    let cur := { x.cur with regs := x.cur.regs.landAm u.am u.val, amPend := [] }
    let done := x.landed ++ [(u.slot, 0x8C + u.am, u.issued, some (u.val.setWidth 64))]
    exec .amUpdateLand s = .next (s.setCtx { x with cur := cur, landed := done }))

/-- R20, R41, R49: a flip, plain or waiting, with every write of its phase landed and no event recorded, exchanges the faces
of each written register and of no other, with the mp sets its context holds; the context goes on, and nothing else
changes. -/
def Sys2Proof.Machine.flipExchangesHold : Prop :=
  ∀ (s : State) (fi : FlipInfo), atFlip s fi → plainFlip fi → noEvent s →
    (fi.wait = true → ∀ m ∈ s.core.ce.catoms, m.ctx = ctxNo s → m.old = true) →
    ∃ t : State, exec (if fi.wait then .flipWComplete else .flip) s = .next t ∧ flipFrame s t ∧
      flipped s.arch.regs t.arch.regs (s.core.pwr.gov != .none) ∧ t.arch.pc = s.arch.pc ∧ t.arch.sclk = s.arch.sclk ∧
      t.arch.loops = s.arch.loops ∧ t.arch.ports = s.arch.ports ∧ t.arch.pipe = s.arch.pipe ∧ t.arch.opnd = s.arch.opnd ∧
      t.ctx.start = t.arch ∧ t.ctx.flip = none ∧ t.ctx.status = .ready ∧
      (∀ e n, SMap.get { vis := 0, hid := 0 } (t.core.eng e).mp n =
        (if (s.core.eng e).holder = BitVec.ofNat 3 (ctxNo s) then swapped (SMap.get { vis := 0, hid := 0 } (s.core.eng e).mp n)
         else SMap.get { vis := 0, hid := 0 } (s.core.eng e).mp n : Face W64))

/-- R41, R49, R181, R194: a flip does nothing before its bundle's last cycle; a waiting one does nothing while a write of its
phase, the answer of a CATOM the phase issued, or an LDSC push of an engine its MDRAIN ends is outstanding. -/
def Sys2Proof.Machine.flipWaitsHold : Prop :=
  (∀ s : State, s.ctx.flip = none → exec .flip s = .next s ∧ exec .flipWComplete s = .next s) ∧
  (∀ (s : State) (fi : FlipInfo), s.ctx.flip = some fi →
    (fi.wait = true ∨ s.core.cyc < fi.last → exec .flip s = .next s) ∧
    (fi.wait = false ∨ s.core.cyc < fi.last ∨ s.core.outstanding (ctxNo s) ≠ [] ∨
      (∃ m ∈ s.core.ce.catoms, m.ctx = ctxNo s ∧ m.old = false) ∨
      (∃ e ∈ fi.mdrain, (s.core.eng e).holder = BitVec.ofNat 3 (ctxNo s) ∧ (s.core.eng e).outLdsc ≠ 0) →
      exec .flipWComplete s = .next s))

/-- R48, R59, R320, R325: a plain flip with a write of its phase not landed stops its context with a timing fault: no face
is exchanged, and its dump, to be captured at the end of the cycle, has the bundle's address and SCLK. -/
def Obligations.TimingFaults : Prop :=
  ∀ (s : State) (fi : FlipInfo), ctxNo s < 4 → s.ctx.flip = some fi → fi.wait = false → fi.last ≤ s.core.cyc →
    s.core.outstanding (ctxNo s) ≠ [] → s.ctx.status = .ready → unmarked s (ctxNo s) →
    ∃ t : State, exec .flip s = .next t ∧ (t.core.ctx (ctxNo s)).status = .stopped ∧
      (t.core.ctx (ctxNo s)).cur.regs = s.arch.regs ∧ t.mem = s.mem ∧ t.core.scratch = s.core.scratch ∧
      t.dumps = s.dumps ∧ marked s t (ctxNo s) 7 (BitVec.ofNat 64 (earliest (s.core.outstanding (ctxNo s)))) fi.pc (s.arch.sclk - 1)

/-- R57, R58, R131, R133, R165, R184, R318: a flip whose phase recorded a TRAP, an enabled arithmetic trap or a watchpoint hit, or, at a
safe point, with a timer request pending, enters the handler, where that is idle and has no other request pending: at HENTRY with SCLK
and HSEL zero and no loop, serving the context, with the cause word and the TRAP word of its events, which are pending no longer; the
context waits in service, its flip done, the halt or the block of its bundle held back. -/
def Obligations.HandlerEntry : Prop :=
  ∀ (s : State) (fi : FlipInfo), atFlip s fi → fi.eret = none → fi.mdrain = [] →
    (fi.wait = true → ∀ m ∈ s.core.ce.catoms, m.ctx = ctxNo s → m.old = true) →
    (fi.safe.isSome = true → ¬preempted s ∧ ¬cancelled s) → s.core.svc.served = none →
    (∀ c < 4, c ≠ ctxNo s → (s.core.ctx c).status ≠ .awaiting) →
    let part := s.part (s.partOfCore (coreNo s))
    let timer := s.ctx.timerReq && fi.safe.isSome
    part.hcode ≠ 0 → (s.arch.trapCount ≠ 0 ∨ s.arch.arith ≠ 0 ∨ hitBits s (ctxNo s) ≠ 0 ∨ timer = true) →
    ∃ t : State, exec (if fi.wait then .flipWComplete else .flip) s = .next t ∧ handlerAt t (ctxNo s) part.hentry ∧
      t.core.svc.entry.cause = BitVec.ofNat 32 ((if s.arch.trapCount = 0 then 0 else 1) + (if hitBits s (ctxNo s) = 0 then 0 else 2) +
        (if s.arch.arith = 0 then 0 else 4) + (if timer then 8 else 0) + 16 * hitBits s (ctxNo s) +
        256 * (s.arch.arith.toNat % 32) + 8192 * ctxNo s) ∧
      (∀ i c, (SMap.get {} t.core.wps i : Watchpoint).hits.getLsbD c =
        (decide (c ≠ ctxNo s) && (SMap.get {} s.core.wps i : Watchpoint).hits.getLsbD c)) ∧
      (t.core.ctx (ctxNo s)).timerReq = (s.ctx.timerReq && !timer) ∧
      t.core.svc.entry.trap = BitVec.ofNat 32 (s.arch.trapCode.toNat + 65536 * min 255 s.arch.trapCount) ∧
      t.core.svc.entry.pcc = s.pcc ∧
      (t.core.ctx (ctxNo s)).after = (if fi.halt then .halted else if fi.block.isSome then .blocked else .ready) ∧
      (t.core.ctx (ctxNo s)).cond = fi.block ∧
      flipped s.arch.regs (t.core.ctx (ctxNo s)).cur.regs (s.core.pwr.gov != .none) ∧
      (t.core.ctx (ctxNo s)).cur.trapCount = 0 ∧ (t.core.ctx (ctxNo s)).cur.arith = 0 ∧
      t.mem = s.mem ∧ t.core.scratch = s.core.scratch ∧ t.core.larder = s.core.larder

/-- R58, R67, R132, R292, R305, R320: the flip of an ERET ends the service: action 0 gives its context back the standing its flip gave
it, a blocked one to be tested from the next core cycle on, but where its launch has been cancelled meanwhile and it is blocked, or ready
at a safe point, it stops with launch-cancelled; action 1 makes it ready at the target, or stops it with the target's error; action 2
stops it with handler-kill, and the reserved action with reserved-ERET. -/
def Obligations.HandlerReturn : Prop :=
  ∀ (s : State) (fi : FlipInfo) (action u : Nat) (target : W64), ctxNo s = 4 → s.ctx.flip = some fi → fi.wait = false →
    fi.last ≤ s.core.cyc → s.core.outstanding 4 = [] → fi.eret = some (action, target) → fi.mdrain = [] → fi.block = none →
    s.core.svc.served = some u → u < 4 → (s.core.ctx u).status = .inService → action < 4 → s.core.issuing = some 4 →
    (∀ c < 4, (s.core.ctx c).status ≠ .awaiting) → (s.core.ctx u).after ≠ .awaiting → unmarked s u →
    (s.core.ctx u).flip = none →
    let x := s.core.ctx u
    let cut := cancelled s ∧ (x.after = .blocked ∨ (x.after = .ready ∧ x.safeAt.isSome = true))
    let kept := x.safeAt = none ∧ x.saved = false
    ∃ t : State, exec .flip s = .next t ∧ t.core.svc.served = none ∧ t.mem = s.mem ∧ t.core.scratch = s.core.scratch ∧
      t.dumps = s.dumps ∧
      (action = 0 → cut → (t.core.ctx u).status = .stopped ∧ marked s t u 0x21 0 x.cur.pc x.cur.sclk) ∧
      (action = 0 → ¬cut → (t.core.ctx u).status = x.after ∧ t.core.marks = s.core.marks ∧
        (x.after = .blocked → (t.core.ctx u).first = s.core.cyc + 2 ∧ (t.core.ctx u).cond = x.cond) ∧
        (kept → (t.core.ctx u).cur = (if x.after = .halted then { x.cur with pipe := [] } else x.cur))) ∧
      (action = 1 → s.targetError (coreNo s) u target = none →
        (t.core.ctx u).status = .ready ∧ t.core.marks = s.core.marks ∧
          (kept → (t.core.ctx u).cur = { x.cur with pc := target })) ∧
      (∀ er, action = 1 → s.targetError (coreNo s) u target = some er →
        (t.core.ctx u).status = .stopped ∧ marked s t u er.1 er.2 x.cur.pc x.cur.sclk) ∧
      (action = 2 → (t.core.ctx u).status = .stopped ∧ marked s t u 0x1E 0 x.cur.pc x.cur.sclk) ∧
      (action = 3 → (t.core.ctx u).status = .stopped ∧ marked s t u 0x1F 0 x.cur.pc x.cur.sclk)

/-- R50, R51, R55, R59, R65, R68, R85, R86, R196, R321: a held core issues nothing, nor does one in a CLAIM's cycles; an illegal
bundle stops its context with that cause, its detail the header or the first illegal slot (what is recorded beside it of a plain flip
is assumption 41); a bundle none of whose slots executes, without bits C, E and
F, takes one schedule cycle and is followed by the next bundle: SCLK and the PC advance, and nothing else of the machine a
program reads changes. -/
def Obligations.BundleIssues : Prop :=
  (∀ s : State, s.core.splitNow = none → (s.core.cyc < s.core.hold ∨ s.core.cyc < s.core.stall) → exec .bundleIssue s = .next s) ∧
  (∀ (s : State) (c : Nat) (p : Packet) (n : Nat), mayIssue s c p → unmarked s c →
    let a := (issueState s c).arch
    illegalDetail false a.bind p (Packet.bundle p a.pc) = some n →
    ∃ t : State, exec .bundleIssue s = .next t ∧ (t.core.ctx c).status = .stopped ∧ t.mem = s.mem ∧
      t.core.scratch = s.core.scratch ∧ t.dumps = s.dumps ∧ marked s t c 1 (BitVec.ofNat 64 n) a.pc a.sclk) ∧
  (∀ (s : State) (c : Nat) (p : Packet), mayIssue s c p →
    let s0 := issueState s c
    let a := s0.arch
    let b := Packet.bundle p a.pc
    illegalDetail false a.bind p b = none → b.hdr.c = false → b.hdr.e = false → b.hdr.f = false →
    (∀ x ∈ b.slots, s0.guard (Slot.ofWord x.2).gd = false) → a.loops = [] → a.amPend = [] → s.core.rows.errs = [] →
    s.core.pwr.gov = .none →
    ∃ t : State, exec .bundleIssue s = .next t ∧ (t.core.ctx c).cur = { a with pc := b.fall, sclk := a.sclk + 1 } ∧
      (t.core.ctx c).flip = none ∧ (t.core.ctx c).first = s.core.cyc + 1 ∧ (t.core.ctx c).status = .ready ∧
      (∀ d, d ≠ c → t.core.ctx d = s.core.ctx d) ∧ (∀ n, n ≠ coreNo s → t.coreAt n = s.coreAt n) ∧
      t.mem = s.mem ∧ t.core.scratch = s.core.scratch ∧ t.core.larder = s.core.larder ∧ t.core.accs = s.core.accs ∧
      t.core.me0 = s.core.me0 ∧ t.core.me1 = s.core.me1 ∧ t.core.ce = s.core.ce ∧ t.launches = s.launches ∧
      t.parts = s.parts ∧ t.dumps = s.dumps ∧ t.core.marks = s.core.marks)

/-- R82, R83, R84: a segment whose bytes have arrived is expanded into the half that is not current, which becomes current
where the fetch waits for it; a fetched metadata word goes to the end of a buffer of 256, marked where it does not
translate; where nothing is due nothing happens. The partition is at foreground priority (R345); bytes that cross a die boundary are
counted (R352). -/
def Obligations.PrefetchSteps : Prop :=
  (∀ (s : State), (s.ctx.fetch.reqs = [] ∨ ∃ q rest, s.ctx.fetch.reqs = q :: rest ∧ s.pcc < q.due) →
    exec .segmentExpansion s = .next s) ∧
  (∀ (s : State) (q : FetchReq), s.ctx.fetch.reqs = [q] → q.due ≤ s.pcc → (s.part (partHere s)).bg = false →
    let f := s.ctx.fetch
    ∃ t : State, exec .segmentExpansion s = .next t ∧ t.mem = s.mem ∧ t.arch = s.arch ∧ t.ctx.status = s.ctx.status ∧
      (s.ctx.replay = false →
        t.ctx.fetch.half (!f.cur) = { s.expandFor (coreNo s) (ctxNo s) q.va with ready := s.core.cyc }) ∧
      (∀ g ∈ s.ctx.kept, s.ctx.replay = true → (∀ r ∈ s.ctx.kept, r.va = q.va → r = g) → g.va = q.va →
        ((f.half (!f.cur)).valid = true → (f.half (!f.cur)).va ≠ q.va) → t.ctx.fetch.half (!f.cur) = { g with ready := s.core.cyc }) ∧
      (∀ g ∈ s.ctx.kept, g ∈ t.ctx.kept) ∧
      t.ctx.fetch.half f.cur = f.half f.cur ∧ t.ctx.fetch.cur = (if q.current then !f.cur else f.cur) ∧
      (∀ r ∈ t.ctx.fetch.reqs, q.current = true ∧ r.current = false ∧ r.va = (t.ctx.fetch.half t.ctx.fetch.cur).next)) ∧
  (∀ (s : State), (s.arch.mpc = 0 ∨ 256 ≤ s.ctx.fetch.mdbuf.length) → exec .metadataPrefetch s = .next s) ∧
  (∀ (s : State), s.arch.mpc ≠ 0 → s.ctx.fetch.mdbuf.length < 256 → (s.part (partHere s)).bg = false →
    let x := s.ctx
    let va := x.cur.mpc + BitVec.ofNat 64 (4 * x.fetch.mdbuf.length)
    let put := fun (w : W32 × Bool) => s.setCtx { x with fetch := { x.fetch with mdbuf := x.fetch.mdbuf ++ [w] } }
    (∀ l, s.vread (partHere s) (dieHere s) va 4 = .ok l →
      ∃ t, countsOnly (put (BitVec.ofNat 32 (leNat l), false)) (partHere s) (dieHere s) t ∧ exec .metadataPrefetch s = .next t) ∧
    (∀ e, s.vread (partHere s) (dieHere s) va 4 = .error e →
      ∃ t, countsOnly (put (0, true)) (partHere s) (dieHere s) t ∧ exec .metadataPrefetch s = .next t))

namespace Sys2Proof.Machine

/-! ## Scheduling, power and rows (R129, R133, R240 to R251, R348 to R350) -/

/-- A blocking condition holds: a barrier has released its member, every masked bit of the bitmap is set, or the write pointer has
reached the threshold (R130, R296). -/
def holdsNow (k : Core) (c : Nat) (d : BlockCond) : Prop :=
  match d with
  | .bar _ => False
  | .done => True
  | .waitbm b m => ∀ i < 64, m.getLsbD i = true → (SMap.get 0 (k.ctx c).cb b).getLsbD i = true
  | .waitwp j w => w.toNat ≤ (if j then k.ce.wp1 else k.ce.wp0).toNat

/-- The next step toward the target begins where no window is open (R240 to R242): one point at a time, its window's length
by direction and by whether OP7 is an end; without a lease the target is at most OP6 (R2, assumption 63). -/
def stepBegun (k t : Core) (pcc : Nat) : Prop :=
  let asked := max k.rows.floor (min k.pwr.ceiling k.pwr.req)
  let target := if k.lease.isSome = true then asked else min 6 asked
  let b := if k.pwr.op < target then k.pwr.op + 1 else k.pwr.op - 1
  let len := if k.pwr.op < b then (if b = 7 then 4860 else 3060) else (if k.pwr.op = 7 then 3900 else 2460)
  t = { k with pwr := { k.pwr with window :=
    if k.pwr.window.isSome = true ∨ target = k.pwr.op then k.pwr.window else some (b, pcc + len) } }

/-- Another state, of which only the cursor's core differs. -/
def coreOnly (s t : State) : Prop :=
  (∀ n, n ≠ coreNo s → t.coreAt n = s.coreAt n) ∧ t = { s with cores := t.cores }

/-- The governor's transitions by state with the core's average power a (R349): each is above its cap, or low (at most nine
tenths of it), or between. -/
def governs (p q : Power) (a : Nat) : Prop :=
  let high := p.cap < a
  let low := 10 * a ≤ 9 * p.cap
  (p.gov = .none → high → q = { p with gov := .pressure, evals := 0, calm := 0 }) ∧
  (p.gov = .none → ¬high → q = p) ∧
  (p.gov = .pressure → low → 1 ≤ p.calm → q = { p with gov := .none, evals := 0, calm := 0 }) ∧
  (p.gov = .pressure → ¬low → high → p.evals = 9 → q = { p with gov := .skip, skip := 1, evals := 10, calm := 0 }) ∧
  (p.gov = .pressure → ¬low → ¬(high ∧ p.evals = 9) → q = { p with evals := p.evals + 1, calm := 0 }) ∧
  (p.gov = .pressure → low → p.calm = 0 → ¬high → q = { p with evals := p.evals + 1, calm := 1 }) ∧
  (p.gov = .skip → high → q = { p with skip := min 7 (p.skip + 1) }) ∧
  (p.gov = .skip → ¬high → low → p.skip ≤ 1 → q = { p with gov := .pressure, skip := 0, evals := 0, calm := 0 }) ∧
  (p.gov = .skip → ¬high → low → 1 < p.skip → q = { p with skip := p.skip - 1 }) ∧
  (p.gov = .skip → ¬high → ¬low → q = p)

/-- A row's demotion to a depth on the cursor's core (R245, R246): its depth and GEN; of a row in use FLOOR is computed again
and evacuation is pending. -/
def demotedTo (s t : State) (row : RowRef) (d : Nat) : Prop :=
  t.core.rows.refDepth row = d ∧ t.core.rows.gen = s.core.rows.gen + 1 ∧
    (s.core.rows.refUsed row = true → t.core.rows.evacPend = true ∧ t.core.rows.floor = t.core.rows.computeFloor) ∧
    (s.core.rows.refUsed row = false → t.core.rows.evacPend = s.core.rows.evacPend ∧ t.core.rows.floor = s.core.rows.floor)

/-- The energy of a test's or patrol's accesses of a row on the device overhead account (R346, assumption 71): a pool row's words as
scratch elements, a Larder row as one row. -/
def rowCharged (s : State) (row : RowRef) (words : Nat) : State :=
  let w := fun (cls : Nat) => (SMap.get (0 : BitVec 16) s.pkg.weights (16 * s.core.pwr.op + cls)).toNat
  let e := match row with
    | .pool _ => words * w 3
    | .larder _ => w 4
  { s with pkg := { s.pkg with ovhenergy := s.pkg.ovhenergy + e } }
/-- The power caps of the other cores that a set holds, together. -/
def otherCaps (s : State) (mine : Nat → Bool) : Nat :=
  ((s.cores.filter fun k => k.1 != coreNo s && mine k.1).map fun k => k.2.pwr.cap).sum
/-- What POWCAP, where it is not 0, and the package cap leave for the cursor's core (R337, R348). -/
def capLeft (s : State) : Nat :=
  let all := s.pkg.pkgcap - otherCaps s fun _ => true
  match s.ownerOf (coreNo s) with
  | none => all
  | some p =>
    let r := (s.part p).pr
    if r.powcap = 0 then all else min all (r.powcap.toNat - otherCaps s r.cores.getLsbD)
/-- The cursor's context gives way at its safe point: its launch is being pre-empted and in no communication step, or another
user context has been ready for the quantum (R302, R305). -/
def mustStop (s : State) : Prop := ∃ l, s.launch = some l ∧ l.preempt = true ∧ l.step = none
def mustYield (s : State) : Prop :=
  ∃ d < 4, d ≠ ctxNo s ∧ (s.core.ctx d).status = .ready ∧ 60000 ≤ s.pcc - (s.core.ctx d).since
/-- A test whose context goes on at u, or gives up the core's issue. -/
def goesOn (s u : State) (o : Host.Outcome State Fault Refusal) : Prop :=
  (¬mustStop s → ¬mustYield s → o = .next u) ∧
  (mustStop s ∨ (mustYield s ∧ s.pcc ≤ u.ctx.since) → ∃ t : State, o = .next t ∧ t.core.issuing ≠ some (ctxNo s))

/-- The dump that is written next. -/
def firstDue (s : State) (d : Dump) : Prop := s.dumps.find? (fun d => decide (d.due ≤ s.pcc)) = some d

end Sys2Proof.Machine

/-- R129, R133, R302, R305, R350: a blocked context whose condition holds becomes ready and may issue from the next core
cycle; one not issuing whose condition is false is left, and one still issuing gives up the core. A context that has kept its
place gives it up at its safe point where its launch is being pre-empted or another has waited the quantum. A timer whose deadline has come disarms
and its request is pending. A lease whose time has run out ends without a refund, and a request of OP7 becomes OP6. Nothing
else changes. -/
def Sys2Proof.Machine.releaseAndExpiryHold : Prop :=
  (∀ s : State, s.ctx.status ≠ .blocked →
    (s.ctx.status ≠ .ready ∨ s.core.issuing ≠ some (ctxNo s) ∨ s.ctx.safeAt = none) → exec .blockRelease s = .next s) ∧
  (∀ s : State, ctxNo s < 4 → s.ctx.status = .ready → s.core.issuing = some (ctxNo s) → s.ctx.safeAt ≠ none →
    goesOn s s (exec .blockRelease s)) ∧
  (∀ (s : State) (d : BlockCond), ctxNo s < 4 → s.ctx.status = .blocked → s.ctx.cond = some d → s.ctx.safeAt ≠ none →
    let u := s.setCtx { s.ctx with status := .ready, cond := none, since := s.pcc, first := s.core.cyc + 1 }
    (holdsNow s.core (ctxNo s) d → s.core.issuing ≠ some (ctxNo s) → exec .blockRelease s = .next u) ∧
    (holdsNow s.core (ctxNo s) d → s.core.issuing = some (ctxNo s) → goesOn s u (exec .blockRelease s)) ∧
    (¬holdsNow s.core (ctxNo s) d → s.core.issuing ≠ some (ctxNo s) → exec .blockRelease s = .next s) ∧
    (¬holdsNow s.core (ctxNo s) d → s.core.issuing = some (ctxNo s) →
      ∃ t : State, exec .blockRelease s = .next t ∧ t.core.issuing ≠ some (ctxNo s) ∧ t.ctx.status = .blocked)) ∧
  (∀ (s : State) (d : Nat), s.ctx.timer = some d → d ≤ s.pcc →
    exec .timerExpiry s = .next (s.setCtx { s.ctx with timer := none, timerReq := true })) ∧
  (∀ s : State, (s.ctx.timer = none ∨ ∃ d, s.ctx.timer = some d ∧ s.pcc < d) → exec .timerExpiry s = .next s) ∧
  (∀ (s : State) (l : Lease), s.core.lease = some l → l.left = 0 →
    ∃ t : State, exec .leaseExpiry s = .next t ∧ coreOnly s t ∧ t.core.lease = none ∧
      t.core.pwr.req = (if s.core.pwr.req = 7 then 6 else s.core.pwr.req) ∧ t.core.ctxs = s.core.ctxs ∧
      t.core.scratch = s.core.scratch ∧ t.parts = s.parts) ∧
  (∀ s : State, (∀ l, s.core.lease = some l → l.left ≠ 0) → exec .leaseExpiry s = .next s)

/-- R240 to R243, R320: a request of a point below FLOOR, or of OP7 without the context's lease, stops its context with an
operating-point error; another becomes the requested point and the next step begins, or, in a communication step, waits for
its end. The end of a step's window puts its end point in force and begins the next step. -/
def Sys2Proof.Machine.operatingPointsHold : Prop :=
  (∀ (s : State) (j : BitVec 3), ctxNo s < 4 → s.ctx.status = .ready → unmarked s (ctxNo s) →
    (j.toNat < s.core.rows.floor ∨ (j = 7 ∧ ∀ l, s.core.lease = some l → l.ctx ≠ ctxNo s)) →
    ∃ t : State, exec (.opChangeRequest j) s = .next t ∧ (t.core.ctx (ctxNo s)).status = .stopped ∧ t.mem = s.mem ∧
      t.dumps = s.dumps ∧ marked s t (ctxNo s) 6 (BitVec.ofNat 64 j.toNat) s.arch.pc s.arch.sclk) ∧
  (∀ (s : State) (j : BitVec 3), s.core.rows.floor ≤ j.toNat →
    (j = 7 → ∃ l, s.core.lease = some l ∧ l.ctx = ctxNo s) →
    (s.inStep (coreNo s) = true → exec (.opChangeRequest j) s =
      .next (s.setCore { s.core with pwr := { s.core.pwr with deferred := some j.toNat } })) ∧
    (s.inStep (coreNo s) = false → ∃ k, stepBegun { s.core with pwr := { s.core.pwr with req := j.toNat } } k s.pcc ∧
      exec (.opChangeRequest j) s = .next (s.setCore k))) ∧
  (∀ (s : State) (b e : Nat), s.core.pwr.window = some (b, e) →
    (s.pcc < e → exec .opStepWindowEnd s = .next s) ∧
    (e ≤ s.pcc → ∃ k, stepBegun { (s.core.trace s.pcc 7 0xB 0 b) with
        pwr := { s.core.pwr with op := b, window := none } } k s.pcc ∧
      exec .opStepWindowEnd s = .next (s.setCore k))) ∧
  (∀ s : State, s.core.pwr.window = none → exec .opStepWindowEnd s = .next s)

/-- R3, R337, R348 to R350: at a multiple of 3,000 cycles the governor moves as its state and the core's average power say; an
assignment gives a core its ceiling (at most OP4 on a hot die), its cap, held to what its partition's POWCAP and the package
cap leave, and its boost allowance, and its partition's pool the credit; where a lower package cap or POWCAP cuts the assigned caps,
they come to at most it, together and by partition, and nothing else changes (assumption 72);
a thermal limit holds or frees the ceiling of every core of its die, and of no other. -/
def Obligations.PowerControl : Prop :=
  (∀ (s : State) (a : Nat), s.pcc % 3000 ≠ 0 → exec (.governorEvaluation a) s = .next s) ∧
  (∀ (s : State) (a : Nat), s.pcc % 3000 = 0 →
    ∃ q, governs s.core.pwr q a ∧ exec (.governorEvaluation a) s = .next (s.setCore { s.core with pwr := q })) ∧
  (∀ (s : State) (c : BitVec 3) (cap pb credit : Nat),
    let hot := SMap.get false s.pkg.hot (dieHere s)
    let ceiling := if hot = true then min 4 c.toNat else c.toNat
    ∃ k, stepBegun { s.core with pwr := { s.core.pwr with planned := c.toNat, ceiling := ceiling, cap := min cap (capLeft s), pb := pb } } k s.pcc ∧
      (s.ownerOf (coreNo s) = none → exec (.plannerAssignment c cap pb credit) s = .next (s.setCore k)) ∧
      (∀ p, s.ownerOf (coreNo s) = some p → exec (.plannerAssignment c cap pb credit) s =
        .next ((s.setCore k).setPart p { s.part p with pool := (s.part p).pool + Int.ofNat credit }))) ∧
  (∀ s : State,
    let t := s.recap
    t = { s with cores := t.cores } ∧
    (∀ n, ∃ c, c ≤ (s.coreAt n).pwr.cap ∧ t.coreAt n = { s.coreAt n with pwr := { (s.coreAt n).pwr with cap := c } }) ∧
    ((s.cores.map (·.1)).Pairwise (· < ·) → (t.cores.map (·.1)) = s.cores.map (·.1) ∧
      (t.cores.map (·.2.pwr.cap)).sum ≤ s.pkg.pkgcap ∧
      ((s.parts.map (·.1)).Nodup → ∀ p, (s.part p).pr.powcap ≠ 0 →
        ((t.cores.filter fun k => s.ownerOf k.1 == some p).map (·.2.pwr.cap)).sum ≤ (s.part p).pr.powcap.toNat))) ∧
  (∀ (s : State) (level : Thermal),
    let die := s.frame.cur.die
    ∃ t : State, exec (.thermalLimit level) s = .next t ∧ t.launches = s.launches ∧ t.parts = s.parts ∧
      SMap.get false t.pkg.hot die = (level != .below105) ∧
      (level = .from110 → SMap.get false t.pkg.veryHot die = true) ∧
      (level = .below105 → SMap.get false t.pkg.veryHot die = false ∧ t.mem = s.mem) ∧
      (∀ i < 192, (t.coreAt (192 * die + i)).pwr.ceiling =
        (if level = .below105 then (s.coreAt (192 * die + i)).pwr.planned else min 4 (s.coreAt (192 * die + i)).pwr.planned) ∧
        (t.coreAt (192 * die + i)).ctxs = (s.coreAt (192 * die + i)).ctxs) ∧
      ∀ n, dieOf n ≠ die → t.coreAt n = s.coreAt n)

/-- What a destructive test of a row leaves of the Larder: of one of its rows every byte elsewhere as it was, of a pool row all; the place
of the free values moves on with the first (R245). -/
def Sys2Proof.Machine.testedAway (s : State) (row : RowRef) (m : Memory) (n : Nat) : Prop :=
  match row with
  | .pool _ => m = s.core.larder ∧ n = s.ctr
  | .larder i =>
    let a := 16384 * s.core.rows.logSlot (i / 64) + 256 * (i % 64)
    ∀ b, b < a ∨ a + 256 ≤ b → m.read b = s.core.larder.read b

/-- R244 to R251, R347: a failed in-field test demotes its row by one, from 7 to retired; a passed one of a row in use leaves
the core, and one of another row leaves its words without errors and a Larder row's contents unspecified. A patrol read corrects a single-bit error, and retires the row of an uncorrectable one; both charge the overhead
account. With evacuation pending, no engine Busy and no step running, the core is held for the evacuation to the first point
that suffices, and the rows move and FLOOR changes when it completes; that they move in the last of its cycles is assumption 34; if none does, every context that has not ended stops. -/
def Obligations.RowHealth : Prop :=
  (∀ (s : State) (row : RowRef) (fails : Bool), rowExists row = true → fails = true → s.core.rows.refDepth row < 8 →
    ∃ t : State, exec (.inFieldTest row fails) s = .next t ∧ demotedTo s t row (s.core.rows.refDepth row + 1) ∧
      t.core.ctxs = s.core.ctxs ∧ t.core.scratch = s.core.scratch ∧ t.launches = s.launches) ∧
  (∀ (s : State) (row : RowRef), rowExists row = true → s.core.rows.refUsed row = true →
    exec (.inFieldTest row false) s = .next (rowCharged (s.setCore s.core) row 32)) ∧
  (∀ (s : State) (row : RowRef), rowExists row = true → s.core.rows.refUsed row = false →
    ∃ (m : Memory) (n : Nat), testedAway s row m n ∧ exec (.inFieldTest row false) s = .next (rowCharged ({ s with ctr := n }.setCore
      { s.core with larder := m, rows := { s.core.rows with
        errs := s.core.rows.errs.filter fun x => (List.range 32).all fun w => x.1 != refKey row w } }) row 32)) ∧
  (∀ (s : State) (row : RowRef) (word : BitVec 5), rowExists row = true → s.inStep (coreNo s) = false →
    s.core.hold ≤ s.core.cyc →
    (SMap.find s.core.rows.errs (refKey row word.toNat) = none → exec (.patrolRead row word) s = .next (rowCharged s row 1)) ∧
    (SMap.find s.core.rows.errs (refKey row word.toNat) = some false → exec (.patrolRead row word) s = .next
      ((rowCharged s row 1).setCore
        { s.core with rows := { s.core.rows with errs := s.core.rows.errs.del (refKey row word.toNat) } })) ∧
    (SMap.find s.core.rows.errs (refKey row word.toNat) = some true → s.core.rows.refDepth row < 8 →
      ∃ t : State, exec (.patrolRead row word) s = .next t ∧ demotedTo s t row 8 ∧ t.core.ctxs = s.core.ctxs)) ∧
  (∀ s : State, s.core.rows.fwEvac = none →
    (s.core.rows.evacPend = false ∨ s.core.me0.busy = true ∨ s.core.me1.busy = true ∨ s.inStep (coreNo s) = true) →
    exec .firmwareEvacuation s = .next s) ∧
  (∀ (s : State) (j : Nat), s.core.rows.fwEvac = none → s.core.rows.evacPend = true → s.core.me0.busy = false →
    s.core.me1.busy = false → s.inStep (coreNo s) = false → s.core.rows.firmwarePoint = some j →
    let k := s.core
    let p := k.rows.evacPlan j
    let till := k.cyc + (16 + 2 * p.d.length + 128 * p.dl.length)
    exec .firmwareEvacuation s =
      .next (s.setCore { k with hold := max k.hold (till + 1), rows := { k.rows with fwEvac := some (j, till) } })) ∧
  (∀ (s : State) (j till : Nat), s.core.rows.fwEvac = some (j, till) →
    let k := { s.core with rows := { s.core.rows with fwEvac := none } }
    let p := s.core.rows.evacPlan j
    let w := (SMap.get (0 : BitVec 16) s.pkg.weights (16 * s.core.pwr.op + 9)).toNat
    let pkg := { s.pkg with ovhenergy := s.pkg.ovhenergy + (p.d.length + 64 * p.dl.length) * w }
    (s.core.cyc < till → exec .firmwareEvacuation s = .next s) ∧
    (till ≤ s.core.cyc → p.d.length ≤ p.p.length → p.dl.length ≤ p.pl.length →
      exec .firmwareEvacuation s = .next { s.setCore (k.evacuate p s.pcc) with pkg := pkg })) ∧
  (∀ s : State, s.core.rows.fwEvac = none → s.core.rows.evacPend = true → s.core.me0.busy = false →
    s.core.me1.busy = false → s.inStep (coreNo s) = false → s.core.rows.firmwarePoint = none →
    ∃ t : State, exec .firmwareEvacuation s = .next t ∧ t.mem = s.mem ∧
      (∀ l, s.launch = some l → ∃ m, t.launch = some m ∧ coreNo s ∈ m.lost) ∧
      ∀ c < 4, (s.core.ctx c).status ≠ .halted → (s.core.ctx c).status ≠ .absent → (t.core.ctx c).status = .stopped)

/-- R321, R324 to R326, R342: a stop marked in a core cycle gives one dump at the cycle's end, with the stop's particulars and
the context as it stood, and the core issues nothing for at most 15,360 cycles after it. A captured dump whose time has come is written to the next Cellar slot, WIDX rises and an MSI goes
to its launch's hart, the bytes that cross a die boundary counted (R352); without a free slot or a tenant key it is lost, and LOST
rises, and nothing else changes. -/
def Obligations.DumpWrites : Prop :=
  (∀ (s : State) (core : Nat), (s.coreAt core).marks = [] → s.captureNow core = s) ∧
  (∀ (s : State) (core : Nat) (m : StopMark) (l : Launch), (s.coreAt core).marks = [m] → s.launchAt core = some l →
    let t := s.captureNow core
    let k := s.coreAt core
    let i := StopInfo.join m.infos
    ∃ d : Dump, t.dumps = s.dumps ++ [d] ∧ d.part = l.part ∧ d.core = core ∧ d.ctx = m.ctx ∧ (d.cause, d.detail) = i.cause ∧
      d.others = i.others ∧ d.pc = i.pc ∧ d.sclk = i.sclk ∧ d.cmdPc = i.cmd ∧ d.pcc = s.pcc ∧ d.events = m.events ∧
      (m.handler = none → d.snap.ctx m.ctx = m.snap) ∧ (t.coreAt core).marks = [] ∧ k.cyc + 1 ≤ (t.coreAt core).hold ∧
      (t.coreAt core).hold ≤ max k.hold (k.cyc + 1 + 15360) ∧ (t.coreAt core).ctxs = k.ctxs ∧ t.mem = s.mem) ∧
  (∀ s : State, (∀ d ∈ s.dumps, s.pcc < d.due) → exec .dumpWrite s = .next s) ∧
  (∀ (s : State) (d : Dump), firstDue s d →
    let p := s.part d.part
    let c := p.cel
    let full := (c.widx - c.ridx).toNat = (c.base.toNat % 256) + 1
    let slot := c.widx.toNat % ((c.base.toNat % 256) + 1)
    let at_ := c.base.toNat / 2 ^ 22 * 2 ^ 22 + 4194304 * slot
    let s1 := { s with dumps := s.dumps.erase d }
    (c.keyctl.getLsbD 0 = false ∨ full → exec .dumpWrite s =
      .next (s1.setPart d.part { p with cel := { c with lost := c.lost + 1 } })) ∧
    (c.keyctl.getLsbD 0 = true → ¬full → p.dlog.en = false → p.bg = false →
      let s2 := { s1 with ctr := s.ctr + 1, mem := s.mem.writeBytes at_ (d.bytes c s.ctr) }
      ∃ t, countsOnly s2 d.part (dieOf d.core) t ∧ exec .dumpWrite s =
        .next ((t.setPart d.part { p with cel := { c with widx := c.widx + 1 } }).raiseIrq (.hart d.launch.hart 1 slot))))

namespace Sys2Proof.Machine

/-! ## The launch unit (R284 to R308) -/

/-- The partition and hart of a command. -/
def partNo (s : State) : Nat := s.frame.cur.part
/-- The cursor's page is none of the reserved pages of the hypervisor window (R375). -/
def ownPage (s : State) : Prop := partNo s < 48 ∨ 63 ≤ partNo s
/-- A completion held for a partition's ring, with its tag and status recorded among the last 256 (R288, R289). -/
def heldCompletion (s : State) (p : Partition) (tag : W32) (hart status : Nat) : Partition :=
  let last := p.cplLast ++ [(tag, status)]
  { p with cplHeld := p.cplHeld ++ [{ tag := tag, status := status, pcc := s.pcc, hart := hart }],
           cplLast := last.drop (last.length - 256) }
/-- A record refused: its completion is held, and nothing else changes (R288). -/
def refusedWith (s : State) (tag : W32) (status : Nat) : State :=
  s.setPart (partNo s) (heldCompletion s (s.part (partNo s)) tag s.frame.cur.hart status)
/-- A launch ended: it leaves the list, and its completion is held (R288). -/
def endedWith (s : State) (l : Launch) (status : Nat) : State :=
  let s1 := { s with launches := s.launches.filter fun x => !(x.part == l.part && x.tag == l.tag) }
  s1.setPart l.part (heldCompletion s (s.part l.part) l.tag l.hart status)

/-- A queued launch as LQPUSH reads it (R284, R287, R288): its tag, priority CTRL[1:0], its object, the pushing hart and its
joined name's PID and TID. -/
def queuedLaunch (s : State) (addr : W64) (l : List Byte) (obj : Obj) : Launch :=
  let j := SMap.get (0 : W64) s.jname s.frame.cur.hart
  let r := readRecord addr l
  { tag := recordTag l, part := partNo s, pri := r.ctrl.toNat % 4, lr := r, obj := obj, hart := s.frame.cur.hart,
    pid := BitVec.ofNat 24 (j.toNat % 2 ^ 24), tid := BitVec.ofNat 24 (j.toNat / 2 ^ 24 % 2 ^ 24) }

/-- A partition that places launches, at foreground priority (R289, R343, R345, R353, R372). -/
def places (s : State) : Prop :=
  let p := s.part (partNo s)
  p.resetting = false ∧ p.quiesced = false ∧ p.bg = false ∧ s.pkg.bootErr ≠ 1 ∧ s.pkg.noCores = false
/-- One with one launch waiting. -/
def considers (s : State) (l : Launch) : Prop := places s ∧ s.waiting (partNo s) = [l] ∧ l.part = partNo s
/-- A launch that has not been saved, its prerequisites satisfied (R289). -/
def isReady (s : State) (l : Launch) : Prop := l.status = .queued ∧ s.prereqs l = some true
def placeable (s : State) (l : Launch) : Prop := considers s l ∧ isReady s l
/-- The partition's placed launches are not to be pre-empted any more, but for those a quiesce saves, until a launch that waits needs
their cores again (R305). -/
def cleared (s : State) : State :=
  { s with launches := s.launches.map fun h =>
      if h.part = partNo s ∧ h.status = .placed ∧ h.area = none then { h with preempt := false } else h }
/-- Every core of a set is free or held by a launch that one of a priority may pre-empt, or some core is not (R291, R305). -/
def mayTake (s : State) (l : Launch) (cores : List Nat) : Prop :=
  ∀ n ∈ cores, ∀ h, s.launchAt n = some h → h.pri < l.pri ∧ h.lr.save ≠ 0 ∧ h.cancel = false
/-- A launch holds one of a set of cores. -/
def holdsOne (s : State) (cores : List Nat) (h : Launch) : Bool := cores.any fun n => (s.coreAt n).launch == some (h.part, h.tag)
/-- A core of a resumed launch and the core its save holds (R307, R308, R350): the launch's memories, engines, trace and lease, and
each context, are those saved, but for what a late command's flag adds; a queued command's time is rebased. -/
def resumedAs (k q : Core) (saveP pcc : Nat) : Prop :=
  q.scratch = k.scratch ∧ q.larder = k.larder ∧ q.me0 = k.me0 ∧ q.me1 = k.me1 ∧ q.lease = k.lease ∧ q.tr = k.tr ∧
    q.rows.owner = k.rows.owner ∧ q.ce.tables = k.ce.tables ∧
    (q.ce.buf.map (·.t) = k.ce.buf.map fun d => if d.t = 0 ∨ d.t ≤ saveP then 0 else pcc + (d.t - saveP)) ∧
    ∀ c < 4, (q.ctx c).status = (k.ctx c).status ∧ (q.ctx c).cb = (k.ctx c).cb ∧ (q.ctx c).cond = (k.ctx c).cond ∧
      (q.ctx c).cur.pc = (k.ctx c).cur.pc ∧
      ((∀ d ∈ k.ce.buf, d.ctx = c → d.t = 0 ∨ saveP < d.t) → (q.ctx c).cur = (k.ctx c).cur)

/-- A context as context load leaves it (R35): the PC at the entry, the arguments in s0 to s7 and a0 to a3, p15 the
governor's, every other register, pointer and pipeline at zero, empty or unused. -/
def loaded (l : Launch) (x : Ctx) (p15 : Bool) : Prop :=
  let a := x.cur
  a.pc = l.lr.entry ∧ a.mpc = 0 ∧ a.sclk = 0 ∧ a.loops = [] ∧ a.nti = 0 ∧ a.bind = 0 ∧ a.ports = [] ∧ a.opnd = [] ∧
    a.pipe = [] ∧ a.amPend = [] ∧ x.start = a ∧ x.cb = [] ∧ x.xfers = [] ∧ x.timer = none ∧ a.regs.flg = {} ∧
    (∀ n < 64, a.regs.getS n = { vis := l.lr.argS.getD n 0, hid := 0 }) ∧
    (∀ n < 16, a.regs.getA n = { vis := l.lr.argA.getD n 0, hid := 0 }) ∧
    (∀ n < 32, a.regs.getV n = { vis := {}, hid := {} }) ∧
    (∀ n, 1 ≤ n → n < 16 → a.regs.getP n = { vis := (n == 15) && p15, hid := false }) ∧
    (∀ n < 8, a.regs.getM n = { vis := 0, hid := 0 }) ∧ (∀ n < 4, a.regs.getNt n = { vis := 0, hid := 0 }) ∧
    (∀ n < 4, a.regs.getAm n = { vis := 0, hid := 0 }) ∧ ∀ n < 16, a.regs.getAcc n = { vis := {}, hid := {} }

/-- R290's checks after the partition word: the code chain, the entry, the boundaries, the distance between safe points. -/
def codeOk (s : State) (l : Launch) (im : Images) : Bool :=
  s.chainOk l.part (s.homeDie l.part) 65536 l.lr.code && s.entryOk l.part (s.homeDie l.part) l.lr.code l.lr.entry &&
    !s.spansDown im.cores &&
    !s.distanceOver l (fillEngine false im.micro) (fillEngine true im.micro) (s.homeDie l.part)

/-- A waiting launch that passes the checks of its record and of its cores (R290). -/
def admitted (s : State) (l : Launch) (im : Images) : Prop :=
  s.readImages l = some im ∧ (im.cores.findSome? fun c => wordStatus l.lr.ppw (s.coreAt c).rows) = none ∧ codeOk s l im = true
/-- Two such launches of a partition wait, in the order in which they are considered. -/
def bothWait (s : State) (l1 l2 : Launch) (im1 im2 : Images) : Prop :=
  places s ∧ s.waiting (partNo s) = [l1, l2] ∧ (∀ l ∈ [l1, l2], l.part = partNo s ∧ isReady s l ∧
    (s.launches.filter fun x => x.part == l.part && x.tag == l.tag) = [l]) ∧ admitted s l1 im1 ∧ admitted s l2 im2
/-- A launch of a tag stands in the list, queued as it was, or placed on some cores. -/
def stillQueued (t : State) (l : Launch) : Prop := findLaunch t.launches l.part l.tag = some l
def placedOn (t : State) (l : Launch) (cores : List Nat) : Prop :=
  ∃ x, findLaunch t.launches l.part l.tag = some x ∧ x.status = .placed ∧ x.cores = cores
/-- A core that holds no launch any more: what the launch left stays on it, but for its claims (R32, R239, R293; assumption 75). -/
def leftCore (k t : Core) : Prop :=
  t.launch = none ∧ t.issuing = none ∧ t.lease = none ∧ t.pwr.req = min k.pwr.req 6 ∧ t.cyc = k.cyc ∧
    t.ctxs = k.ctxs ∧ t.scratch = k.scratch ∧ t.larder = k.larder ∧ t.me0 = k.me0 ∧ t.me1 = k.me1 ∧ t.ce = k.ce ∧
    t.rows = { k.rows with owner := [] } ∧ t.tr = k.tr
/-- A launch that is being pre-empted may be saved: no step of it runs and its cores are quiet (R305). -/
def savable (s : State) (x : Launch) : Prop :=
  x.status = .placed ∧ x.preempt = true ∧ x.cancel = false ∧ x.step = none ∧ ∀ n ∈ x.cores, (s.coreAt n).quiet = true
/-- The refunds of the leases a saved launch has paused (R350). -/
def pausedRefund (l : Launch) : Nat :=
  (l.saved.map fun k => match k.lease with
    | some v => if v.granted = 0 then 0 else v.debit * v.left / v.granted
    | none => 0).sum

end Sys2Proof.Machine

/-- R284, R287, R288, R290, R343, R351: LQPUSH of a readable record queues its launch for the pushing hart; with 64 launches
queued it is refused with status 9, with the feature set unlocked or its tag in use with status 1, and so is a record that
cannot be read; the register takes the record's address; during a reset, and at a reserved page (R375), the push is ignored. Nothing
else changes, but that the record's bytes that cross a die boundary are counted (R352). At background priority a push whose record's
channel others need, or that has one of its partition before it, waits for the next cycle (R345; assumption 90). That these three are refused at the push, an unreadable record with tag 0, and what the register reads, are assumption
44; the die whose block translates the record is assumption 45. -/
def Obligations.QueuePush : Prop :=
  ∀ (s0 : State) (v : W64),
    let p := s0.part (partNo s0)
    let addr := v &&& ~~~0xFF
    let obj := SMap.get {} p.objs addr.toNat
    let s := s0.setPart (partNo s0) { p with lqpush := addr }
    let mine := s.launches.filter fun x => x.part == partNo s
    let waiting := (mine.filter fun x => x.status != .placed).length
    (p.resetting = true ∨ ¬ownPage s0 → exec (.lqpush v) s0 = .next s0) ∧
    (p.resetting = false → ownPage s0 → p.bg = true → p.bgAt < s.pcc →
      ((∃ x ∈ s.inbox, s.pcc < x.1 ∧ ∃ cur w, x.2 = .exec cur (.lqpush w) ∧ cur.part = partNo s) ∨
        s.givesWayOn (partNo s) (s.homeDie (partNo s)) addr 256 = true) →
      exec (.lqpush v) s0 = .next { s with inbox := s.inbox ++ [(s.pcc + 1, .exec s.frame.cur (.lqpush v))] }) ∧
    (p.resetting = false → ownPage s0 → p.bg = false → ∀ e, s.vread (partNo s) (s.homeDie (partNo s)) addr 256 = .error e →
      exec (.lqpush v) s0 = .next (refusedWith s 0 1)) ∧
    (p.resetting = false → ownPage s0 → p.bg = false → ∀ l, s.vread (partNo s) (s.homeDie (partNo s)) addr 256 = .ok l →
      ∃ u, countsOnly s (partNo s) (s.homeDie (partNo s)) u ∧
      (64 ≤ waiting → exec (.lqpush v) s0 = .next (refusedWith u (recordTag l) 9)) ∧
      (waiting < 64 → (p.flock = false ∨ ∃ x ∈ mine, x.tag = recordTag l) →
        exec (.lqpush v) s0 = .next (refusedWith u (recordTag l) 1)) ∧
      (waiting < 64 → p.flock = true → (∀ x ∈ mine, x.tag ≠ recordTag l) →
        exec (.lqpush v) s0 = .next { u with launches := s.launches ++ [queuedLaunch s addr l obj] }))

/-- R287 to R289, R292, R342, R350: LQCANCEL's register takes the tag; a queued or saved launch is removed with status 8, the
leases it has paused refunded, and a placed one is marked, its blocked contexts stopping (that they stop at once, and when its leases
are refunded, is assumption 47); the oldest completion held is written to a ring with fewer than 256 unread entries, with an MSI to its
hart (the die whose block translates the ring is assumption 45), its bytes that cross a die boundary counted (R352); where there is
none, or no room, or a record of the partition waits before it (R345), nothing happens, nor at a reserved page (R375). -/
def Obligations.CancelAndCompletions : Prop :=
  (∀ (s : State) (v : W64), ¬ownPage s → findLaunch s.launches (partNo s) (v.setWidth 32) = none → exec (.lqcancel v) s = .next s) ∧
  (∀ (s : State) (v : W64), ownPage s → findLaunch s.launches (partNo s) (v.setWidth 32) = none → exec (.lqcancel v) s =
    .next (s.setPart (partNo s) { s.part (partNo s) with lqcancel := BitVec.ofNat 64 (v.toNat % 2 ^ 32) })) ∧
  (∀ (s : State) (v : W64) (l : Launch), ownPage s → findLaunch s.launches (partNo s) (v.setWidth 32) = some l →
    let s1 := s.setPart (partNo s) { s.part (partNo s) with lqcancel := BitVec.ofNat 64 (v.toNat % 2 ^ 32) }
    let q := s1.part l.part
    let s2 := if pausedRefund l = 0 then s1 else s1.setPart l.part { q with pool := q.pool + Int.ofNat (pausedRefund l) }
    (l.status ≠ .placed → exec (.lqcancel v) s = .next (endedWith s2 l 8)) ∧
    (l.status = .placed → ∃ t : State, exec (.lqcancel v) s = .next t ∧ t.mem = s.mem ∧ t.pcc = s.pcc ∧
      (∀ x, findLaunch t.launches (partNo s) l.tag = some x → x.cancel = true ∧ x.status = .placed) ∧
      (∀ n ∈ l.cores, ∀ c < 4, ((s.coreAt n).ctx c).status = .blocked → ((t.coreAt n).ctx c).status = .stopped) ∧
      ∀ n, n ∉ l.cores → t.coreAt n = s.coreAt n)) ∧
  (∀ s : State, ((s.part (partNo s)).cplHeld = [] ∨ 256 ≤ (s.part (partNo s)).cplCount - (s.part (partNo s)).cplRead ∨
      ∃ h ∈ s.pkg.held, h.part = partNo s) →
    exec .completionRingWrite s = .next s) ∧
  (∀ (s t : State) (c : Completion) (rest : List Completion),
    let p := s.part (partNo s)
    p.cplHeld = c :: rest → p.cplCount - p.cplRead < 256 → p.bg = false → (∀ h ∈ s.pkg.held, h.part ≠ partNo s) →
    s.vwrite (partNo s) (s.homeDie (partNo s)) ((p.lqcpl &&& ~~~0xFFF) + BitVec.ofNat 64 (16 * (p.cplCount % 256)))
      (leBytes 4 c.tag.toNat ++ leBytes 1 c.status ++ leBytes 3 0 ++ leBytes 8 c.pcc) = .ok t →
    ∃ u, countsOnly t (partNo s) (s.homeDie (partNo s)) u ∧
      exec .completionRingWrite s = .next ((u.setPart (partNo s) { t.part (partNo s) with
        cplHeld := rest, cplCount := p.cplCount + 1 }).raiseIrq (.hart c.hart 0 (p.cplCount % 256))))

/-- R29, R35, R239, R289 to R291, R300, R305 to R308: launches wait in the order of their priority, and in one by their place in the
queue; one behind another that cannot be placed is placed only where their cores are disjoint. A waiting launch whose record is not
legal is refused with status 1, one its admission refuses with that status, one with a failed prerequisite with 4, its sub-images' bytes
that cross a die boundary counted (assumption 95); otherwise, where every core of its set is free, it is placed at once: each core takes
it, with each context as context load leaves it, the handler's registers zero, its scratch the bound data image and zeros, and
its Larder empty, its cycle count kept (assumption 49). Where a core is held by a launch that it may not pre-empt nothing happens;
where it may pre-empt every holder they are marked, and nothing else changes; a mark that no waiting launch needs is taken back. A saved launch is placed again on the cores that its
resume finds, where they are free, as its save holds it (assumption 73), from the PCC cycle after its save on. A partition in reset or
quiesced places none. -/
def Obligations.Placement : Prop :=
  (∀ s : State, ((s.part (partNo s)).resetting = true ∨ (s.part (partNo s)).quiesced = true) →
    exec .launchPlacement s = .next s) ∧
  (∀ (s : State) (l : Launch), placeable s l →
    (∃ u, countsOnly (cleared s) l.part (s.homeDie l.part) u ∧
      (s.readImages l = none → exec .launchPlacement s = .next (endedWith u l 1)) ∧
      ∀ im, s.readImages l = some im →
        (∀ n, (im.cores.findSome? fun c => wordStatus l.lr.ppw (s.coreAt c).rows) = some n →
          exec .launchPlacement s = .next (endedWith u l n)) ∧
        ((im.cores.findSome? fun c => wordStatus l.lr.ppw (s.coreAt c).rows) = none → codeOk s l im = false →
          exec .launchPlacement s = .next (endedWith u l 1))) ∧
    (∀ im, admitted s l im →
      (¬mayTake s l im.cores → exec .launchPlacement s = .next (cleared s)) ∧
      (mayTake s l im.cores → (∃ n ∈ im.cores, (s.launchAt n).isSome = true) →
        let mark := fun (h : Launch) => if holdsOne s im.cores h = true then { h with preempt := true } else h
        exec .launchPlacement s = .next { s with launches := (cleared s).launches.map mark })) ∧
    (∀ im, admitted s l im → im.cores.Nodup → (∀ n ∈ im.cores, (s.coreAt n).launch = none) →
      (s.launches.filter fun x => x.part == l.part && x.tag == l.tag) = [l] →
      ∃ t : State, exec .launchPlacement s = .next t ∧ t.mem = s.mem ∧ t.pcc = s.pcc ∧
        (∃ l1, findLaunch t.launches l.part l.tag = some l1 ∧ l1.status = .placed ∧ l1.cores = im.cores ∧ l1.groups = im.groups ∧
          l1.lives = im.lives ∧ l1.codeBase = im.base) ∧
        (∀ n ∈ im.cores,
          let k := t.coreAt n
          k.launch = some (l.part, l.tag) ∧ k.cyc = (s.coreAt n).cyc ∧ k.larder = [] ∧ k.accs = [] ∧ k.issuing = none ∧
            k.rows.ppw = l.lr.ppw ∧ k.rows.owner = [] ∧ k.rows.floor = k.rows.computeFloor ∧
            (∀ i < im.data.length, k.scratch.read i = im.data.getD i 0) ∧ (∀ i, im.data.length ≤ i → k.scratch.read i = 0) ∧
            k.ctx 4 = {} ∧ ∀ c < l.nctx, loaded l (k.ctx c) ((s.coreAt n).pwr.gov != .none)) ∧
        ∀ n, n ∉ im.cores → t.coreAt n = s.coreAt n)) ∧
  (∀ (s : State) (l : Launch), considers s l → l.status = .queued →
    (s.prereqs l = none → exec .launchPlacement s = .next (cleared s)) ∧
    (s.prereqs l = some false → exec .launchPlacement s = .next (endedWith (cleared s) l 4))) ∧
  (∀ (s : State) (part : Nat), (s.waiting part).Pairwise (fun a b => b.pri ≤ a.pri) ∧ ∀ pri < 4,
    (s.waiting part).filter (fun l => l.pri == pri) =
      s.launches.filter fun l => l.part == part && l.status != .placed && l.pri == pri) ∧
  (∀ (s : State) (l1 l2 : Launch) (im1 im2 : Images), bothWait s l1 l2 im1 im2 → l1.tag ≠ l2.tag →
    im1.cores.Nodup → im2.cores.Nodup →
    (¬mayTake s l1 im1.cores → (∃ n ∈ im1.cores, n ∈ im2.cores) → exec .launchPlacement s = .next (cleared s)) ∧
    (¬mayTake s l1 im1.cores → (∀ n ∈ im1.cores, n ∉ im2.cores) → (∀ n ∈ im2.cores, (s.coreAt n).launch = none) →
      ∃ t : State, exec .launchPlacement s = .next t ∧ stillQueued t l1 ∧ placedOn t l2 im2.cores ∧
        ∀ n, n ∉ im2.cores → t.coreAt n = s.coreAt n) ∧
    ((∀ n ∈ im1.cores, (s.coreAt n).launch = none) → (∃ n ∈ im1.cores, n ∈ im2.cores) →
      ∃ t : State, exec .launchPlacement s = .next t ∧ placedOn t l1 im1.cores ∧ (∀ x, findLaunch t.launches l2.part l2.tag = some x →
        x.status ≠ .placed) ∧ ∀ n, n ∉ im1.cores → t.coreAt n = s.coreAt n)) ∧
  (∀ (s : State) (l : Launch), considers s l → l.status = .saved →
    (l.saveP = s.pcc → exec .launchPlacement s = .next (cleared s)) ∧
    (∀ cores, l.saveP ≠ s.pcc → s.resumeCores l = some cores → cores.Nodup → (∀ n ∈ cores, (s.coreAt n).launch = none) →
      (s.launches.filter fun x => x.part == l.part && x.tag == l.tag) = [l] →
      let back := s.readSave l (s.homeDie l.part) (readRecord l.lr.addr)
      let s2 := if pausedRefund l = 0 then cleared s else
        (cleared s).setPart l.part { s.part l.part with pool := (s.part l.part).pool + Int.ofNat (pausedRefund l) }
      (back = none → exec .launchPlacement s = .next (endedWith s2 l 5)) ∧
      (∀ l1, back = some l1 → ∃ t : State, exec .launchPlacement s = .next t ∧ t.mem = s.mem ∧ t.pcc = s.pcc ∧
        (∃ l2, findLaunch t.launches l.part l.tag = some l2 ∧ l2.status = .placed ∧ l2.cores = cores ∧ l2.saved = [] ∧
          l2.groups = l1.groups ∧ l2.episodes = l1.episodes ∧ l2.lr = l1.lr) ∧
        (∀ (i n : Nat) (k : Core), cores[i]? = some n → l1.saved[i]? = some k →
          (t.coreAt n).launch = some (l.part, l.tag) ∧ (t.coreAt n).cyc = (s.coreAt n).cyc ∧ (t.coreAt n).issuing = none ∧
            (t.coreAt n).rows.ppw = l1.lr.ppw ∧ resumedAs k (t.coreAt n) l1.saveP s.pcc) ∧
        ∀ n, n ∉ cores → t.coreAt n = s.coreAt n)))

/-- R239, R288, R291, R293, R305, R306: once every context of a launch has ended, its commands are done and no step runs, its
cores hold it no more and its completion is held with the status of how it ended, 8 where it was cancelled and one of its contexts
has stopped; what it leaves on a core is assumption 75. A pre-emption considers the launches that wait, and takes back a mark that none
of them needs any more; the launches still to be pre-empted, once all their contexts
stand at safe points, are saved, and what waits is placed in the same step (assumption 48); a launch saved goes to the head of the
list and its cores hold it no more; a translation fault of a save stops every context of its launch, and none is saved (assumption 48).
Before that nothing else happens. -/
def Obligations.CompletionAndSave : Prop :=
  (∀ (s : State) (tag : W32), findLaunch s.launches (partNo s) tag = none → exec (.launchCompletion tag) s = .next s) ∧
  (∀ (s : State) (tag : W32) (l : Launch), findLaunch s.launches (partNo s) tag = some l →
    (l.status ≠ .placed ∨ l.step.isSome = true ∨ (∃ n ∈ l.cores, (s.coreAt n).finished = false) →
      exec (.launchCompletion tag) s = .next s) ∧
    (l.status = .placed → l.step = none → (∀ n ∈ l.cores, (s.coreAt n).finished = true) →
      ∃ t : State, exec (.launchCompletion tag) s = .next t ∧ t.mem = s.mem ∧
        findLaunch t.launches l.part l.tag = none ∧ (∀ n ∈ l.cores, leftCore (s.coreAt n) (t.coreAt n)) ∧
        (∀ n, n ∉ l.cores → t.coreAt n = s.coreAt n) ∧
        ∃ status, t.part l.part = heldCompletion s (s.part l.part) l.tag l.hart status ∧
          (l.sawFatal = true → status = 5) ∧ (l.sawFatal = false → l.sawCapacity = true → status = 6) ∧
          (l.sawFatal = false → l.sawCapacity = false → l.sawLink = true → status = 7) ∧
          (l.sawFatal = false → l.sawCapacity = false → l.sawLink = false →
            (l.cancel = true ∧ (∃ n ∈ l.cores, ∃ c < 4, ((s.coreAt n).ctx c).status = .stopped) → status = 8) ∧
            (l.cancel = false ∨ (∀ n ∈ l.cores, ∀ c < 4, ((s.coreAt n).ctx c).status ≠ .stopped) → status = 0)))) ∧
  (∀ (s0 s : State) (tag : W32), exec .launchPlacement s0 = .next s →
    (findLaunch s.launches (partNo s0) tag = none → exec (.preEmption tag) s0 = .next s) ∧
    ∀ l, findLaunch s.launches (partNo s0) tag = some l →
      let all := if l.area.isSome = true then [l]
        else s.launches.filter fun x => x.part == l.part && x.status == .placed && x.preempt && x.area.isNone
      let faulty := fun (x : Launch) => ∃ va : W64, s.writeSave x
        (savePieces x (x.cores.zip (x.cores.map fun c => (s.coreAt c).asSaved x (trapEnables x.lr.ctrl) s.pcc)) s.pcc) = .error va
      (¬savable s l ∨ (∃ x ∈ all, ¬savable s x) → exec (.preEmption tag) s0 = .next s) ∧
      (savable s l → (∀ x ∈ all, savable s x) → (s.part (partNo s0)).bg = false →
        ((∀ x ∈ all, ¬faulty x) → exec (.preEmption tag) s0 = exec .launchPlacement (all.foldl State.saveLaunch s)) ∧
        ((∃ x ∈ all, faulty x) → ∃ t : State, exec (.preEmption tag) s0 = .next t ∧ t.mem = s.mem ∧
          (∀ n, (∀ x ∈ all, faulty x → n ∉ x.cores) → t.coreAt n = s.coreAt n) ∧
          ∀ x ∈ all, faulty x → ∀ n ∈ x.cores, ∀ c < 4, ((s.coreAt n).ctx c).status ≠ .absent →
            ((t.coreAt n).ctx c).status = .stopped))) ∧
  ∀ (s : State) (l : Launch),
    let saved := l.cores.map fun c => (s.coreAt c).asSaved l (trapEnables l.lr.ctrl) s.pcc
    (∀ t : State, s.writeSave l (savePieces l (l.cores.zip saved) s.pcc) = .ok t →
      (s.saveLaunch l).mem = t.mem ∧ (s.saveLaunch l).pcc = s.pcc ∧
        (∀ n ∈ l.cores, leftCore (s.coreAt n) ((s.saveLaunch l).coreAt n)) ∧
        (∀ n, n ∉ l.cores → (s.saveLaunch l).coreAt n = s.coreAt n) ∧
        (s.saveLaunch l).launches = { l with status := .saved, saved := saved, saveP := s.pcc, preempt := false } ::
          s.launches.filter fun x => !(x.part == l.part && x.tag == l.tag)) ∧
    (∀ va : W64, s.writeSave l (savePieces l (l.cores.zip saved) s.pcc) = .error va →
      (s.saveLaunch l).mem = s.mem ∧
        ∀ n ∈ l.cores, ∀ c < 4, ((s.coreAt n).ctx c).status ≠ .absent → (((s.saveLaunch l).coreAt n).ctx c).status = .stopped)

namespace Sys2Proof.Machine

/-! ## Partitions, registers and the outside (R254 to R260, R335 to R377) -/

def dieNo (s : State) : Nat := s.frame.cur.die
def partOf (s : State) : Partition := s.part (partNo s)
def txOf (s : State) : TxBlock := s.txAt (partNo s) (dieNo s)
def putPart (s : State) (p : Partition) : State := s.setPart (partNo s) p
def putTx (s : State) (b : TxBlock) : State := s.setTx (partNo s) (dieNo s) b
/-- An interrupt raised. -/
def irq (s : State) (q : Irq) : State := { s with irqs := s.irqs ++ [q] }
/-- The lowest-numbered hart of the partition. -/
def lowHartIs (p : Partition) (h : Nat) : Prop :=
  (h < 48 ∧ p.pr.harts.getLsbD h = true ∧ ∀ i < h, p.pr.harts.getLsbD i = false) ∨
    (h = 0 ∧ ∀ i < 48, p.pr.harts.getLsbD i = false)

/-- A command of the hypervisor accepted: PCMDGO holds its operation and partition, and it runs with PCMD's address as it stands
(R339). -/
def commanded (s : State) (op : Nat) : State :=
  { s with pkg := { s.pkg with pcmdgo := BitVec.ofNat 64 (256 * op + partNo s % 64), pcmdBusy := true,
                               cmdAddr := s.pkg.pcmd.toNat / 64 % 2 ^ 48 * 64 } }
/-- A command ended with an error or 0: BUSY clears (R339). -/
def commandEnds (s : State) (err : Nat) : State :=
  { s with pkg := { s.pkg with pcmdErr := if s.pkg.again then 2 else err, pcmdBusy := false, again := false } }
/-- The record at PCMD (R337, R339). -/
def recordAt (s : State) : List Byte := s.mem.readBytes (s.pkg.pcmd.toNat / 64 % 2 ^ 48 * 64) 256
/-- The six commands with their operations. -/
def commandRows : List (Instr × Nat) :=
  [(.partCreate, 1), (.partRemove, 2), (.partReset, 3), (.partUpdateBudgets, 4), (.partQuiesce, 5), (.partImport, 6)]

/-- The registers a write of which stores its value, with what they hold after it: of the partition, of its block on a die,
of the package (R6, R287, R318, R324, R339 to R341, R351, R354, R362, R374). -/
def partRegs (v : W64) : List (DevReg × (Partition → Partition)) := [
  (.lqcpl, fun p => { p with lqcpl := BitVec.ofNat 64 (v.toNat / 2 ^ 12 * 2 ^ 12) }),
  (.hcode, fun p => { p with hcode := v }), (.hentry, fun p => { p with hentry := v }),
  (.celack, fun p => { p with cel := { p.cel with ridx := v.setWidth 32 } }),
  (.tenkey 0, fun p => { p with cel := { p.cel with tenkey := p.cel.tenkey.put 0 v } }),
  (.audkey 3, fun p => { p with cel := { p.cel with audkey := p.cel.audkey.put 3 v } }),
  (.keyctl, fun p => { p with cel := { p.cel with keyctl := BitVec.ofNat 64 (v.toNat % 4) } }),
  (.llbase, fun p => { p with llbase := BitVec.ofNat 64 (v.toNat / 2 ^ 10 * 2 ^ 10) }),
  (.perrbase, fun p => { p with perrbase := BitVec.ofNat 64 (v.toNat / 2 ^ 11 * 2 ^ 11) }),
  (.dlogbase, fun p => { p with dlog := { p.dlog with base := v } })]

/-- A boundary that has not failed fails: there is such a boundary, and its flit is lost, or lane lock has been lost for more than
300 PCC cycles (R368), which the cursor's index counts. -/
def fails (s : State) (b : BitVec 2) : Prop :=
  b ≠ 3 ∧ SMap.get 0 s.pkg.link b.toNat ≠ 1 ∧ (s.frame.cur.idx = 0 ∨ 300 < s.frame.cur.idx)
/-- A queue pair assigned to the cursor's partition, at foreground priority, and a request of it with no ring access, on its service,
with no other that waits, where NET is accepted and no page is watched (R345, R369, R370). -/
def qpOf (s : State) (r : NetReq) : QueuePair := SMap.get ({} : QueuePair) s.pkg.qps r.qp
def pairReady (s : State) (r : NetReq) : Prop :=
  (qpOf s r).part = some (partNo s) ∧ (qpOf s r).err = false ∧ r.ud = (qpOf s r).ud ∧ r.rings = [] ∧
    (partOf s).accepts 3 = true ∧ (partOf s).accepts 2 = false ∧ (partOf s).bg = false ∧ ∀ w ∈ s.waits, ∀ q, w.i ≠ .networkWorkRequest q
/-- A page request of a partition for the page of a faulting address stands in the queue (R258). -/
def pageAsked (t : State) (part : Nat) (e : W64) (write : Bool) : Prop :=
  ∃ x ∈ t.prq, x.2.part = part ∧ x.2.page = BitVec.ofNat 64 (e.toNat / 4096 * 4096) ∧ x.2.write = write
/-- A faulting access of a port waits: for its page, requested, or for an entry to free (R370). -/
def faultWaits (t : State) (part : Nat) (e : W64) (asked : Bool) (i : Instr) (write : Bool) : Prop :=
  (asked = true → pageAsked t part e write) ∧ ∃ w ∈ t.waits, w.i = i ∧ w.cur.part = part ∧ w.write = write ∧ w.gives = false ∧
    w.page = if asked then some (BitVec.ofNat 64 (e.toNat / 4096 * 4096)) else none
/-- What an atomic of the port leaves at its target (R369). -/
def atomicLeaves (op : NetOp) (old : W64) : W64 :=
  match op with
  | .fetchAdd v => BitVec.ofNat 64 (old.toNat + v.toNat)
  | .cmpSwap c v => if old = c then v else old
  | _ => old

/-- What a network or storage access of memory leaves besides: nothing but memory, its queue pair and the
counters. -/
def portFrame (s t : State) : Prop :=
  t.pcc = s.pcc ∧ t.cores = s.cores ∧ t.launches = s.launches ∧ t.parts = s.parts ∧ t.prq = s.prq ∧ t.waits = s.waits ∧
    t.frame = s.frame ∧ t.dumps = s.dumps

/-! ## The bounds of the special functions (R152, R153) -/

/-- R153's table: each element function's result of +0, -0, +infinity and -infinity; none is the NaN with NV. -/
def sfSpecials (f : Fmt) : List ((Fmt → Nat → Nat × Flags) × List (Option Nat)) :=
  let m := 2 ^ (f.w - 1)
  let inf := f.maxCode + 1
  let one := f.bias * 2 ^ f.mb
  let half := (f.bias - 1) * 2 ^ f.mb
  [(sfRcp, [some inf, some (m + inf), some 0, some m]), (sfRsq, [some inf, some (m + inf), some 0, none]),
    (sfSqrt, [some 0, some m, some inf, none]), (sfExp2, [some one, some one, some inf, some 0]),
    (sfLog2, [some (m + inf), some (m + inf), some inf, none]), (sfTanh, [some 0, some m, some one, some (m + one)]),
    (sfSigm, [some half, some half, some one, some 0]), (sfErf, [some 0, some m, some one, some (m + one)])]

/-- The functions with an error bound: the element function, and the operands' integers at which a value within the bound is due. -/
def boundedFns : List (SfFn × (Fmt → Nat → Nat × Flags) × (Int → Prop)) :=
  [(.rsq, sfRsq, (0 < ·)), (.exp2, sfExp2, (· ≠ 0)), (.log2, sfLog2, (0 < ·)), (.tanh, sfTanh, (· ≠ 0)), (.sigm, sfSigm, (· ≠ 0)),
    (.erf, sfErf, (· ≠ 0))]
/-- R152's bound in units in the last place, in FP32 and in the narrower formats. -/
def ulps (fn : SfFn) (f : Fmt) : Nat :=
  match fn with
  | .rsq => 1
  | .exp2 => if f = fp32 then 2 else 1
  | .log2 => if f = fp32 then 2 else 1
  | _ => if f = fp32 then 3 else 1
/-- R152's bound at a value: its ulps at the value's magnitude, and LOG2's absolute error of an operand in [0.5, 2]. -/
def allowance (fn : SfFn) (f : Fmt) (x : Int) (v : Dy) : Dy :=
  let inside := fn = .log2 ∧ (2 : Int) ^ (-1 - f.unit).toNat ≤ x ∧ x ≤ (2 : Int) ^ (1 - f.unit).toNat
  if inside then { neg := false, n := 1, e := if f = fp32 then -22 else -10 }
  else { neg := false, n := ulps fn f, e := max (Int.ofNat v.n.log2 + v.e) (1 - Int.ofNat f.bias) - Int.ofNat f.mb }
/-- A result, in the format's units, lies within the bound of a value known to 100 bits. -/
def within (fn : SfFn) (f : Fmt) (x : Int) (v : Dy) (r : Int) : Prop :=
  let b := allowance fn f x v
  let m := min (min f.unit b.e) (v.e - 100)
  (r * 2 ^ (f.unit - m).toNat - v.at m).natAbs ≤ b.n * 2 ^ (b.e - m).toNat + v.n * 2 ^ (v.e - 100 - m).toNat
/-- A result is the exact mathematical value, all in the format's units. -/
def isExact (fn : SfFn) (f : Fmt) (x r : Int) : Prop :=
  let one : Int := 2 ^ (-f.unit).toNat
  match fn with
  | .rsq => r * r * x = one * one * one
  | .exp2 => ∃ k : Int, f.unit ≤ k ∧ x = k * one ∧ r = 2 ^ (k - f.unit).toNat
  | .log2 => ∃ k : Int, f.unit ≤ k ∧ x = 2 ^ (k - f.unit).toNat ∧ r = k * one
  | _ => False

end Sys2Proof.Machine

/-- R152, R153: the element functions of SF in FP32, BF16 and FP16. The special inputs give R153's table, and a NaN the canonical
NaN with NANSEEN; RSQ, SQRT and LOG2 of a negative value are invalid. RCP and SQRT are correctly rounded, EXP2 of an integer and
FP32's LOG2 of a power of two are exact, and every other result lies within R152's bound of the function's value, its ulp at the
value's magnitude, or where not even the nearest code does (BF16's LOG2 of a value inside [0.5, 1), assumption 6) is that code, with NX where it is not exact and
UF where it is tiny as well; EXP2 overflows to infinity. TANH's and ERF's
results lie in [-1, 1], SIGM's in [0, 1]; EXP2, LOG2, SQRT, TANH, SIGM and ERF do not decrease with their operand, and RCP and RSQ do not
increase on either side of zero. The function's value is the model's own, reckoned to more than 100 bits (assumption 6). -/
def Obligations.SpecialBounds : Prop :=
  ∀ f ∈ wideFmts,
    (∀ g ∈ sfSpecials f, ∀ i < 4, match g.2.getD i none with
      | some r => g.1 f ([0, 2 ^ (f.w - 1), f.maxCode + 1, 2 ^ (f.w - 1) + f.maxCode + 1].getD i 0) = (r, 0)
      | none => invalid f (g.1 f ([0, 2 ^ (f.w - 1), f.maxCode + 1, 2 ^ (f.w - 1) + f.maxCode + 1].getD i 0))) ∧
    (∀ g ∈ sfSpecials f, ∀ c, f.value c = .nan → seesNan f (g.1 f c)) ∧
    (∀ c x, f.int c = some x → x < 0 → invalid f (sfRsq f c) ∧ invalid f (sfSqrt f c) ∧ invalid f (sfLog2 f c)) ∧
    (∀ c d, f.value c = .fin d → d.n ≠ 0 →
      roundsTo f .rne (if d.neg then -2 ^ (-d.e - f.unit).toNat else 2 ^ (-d.e - f.unit).toNat) d.n (sfRcp f c)) ∧
    (∀ c x, f.int c = some x → 0 < x →
      let sq : Int := x * 2 ^ (-f.unit).toNat
      ∃ r, f.int (sfSqrt f c).1 = some r ∧ 0 ≤ r ∧ (sfSqrt f c).2 = (if r * r = sq then 0 else Flags.nx) ∧
        ∀ a u, f.int a = some u → 0 ≤ u → (u < r → (u + r) * (u + r) ≤ 4 * sq) ∧ (r < u → 4 * sq ≤ (u + r) * (u + r))) ∧
    (∀ c (k : Int), f.int c = some (k * 2 ^ (-f.unit).toNat) → f.unit ≤ k → k ≤ Int.ofNat f.bias →
      (sfExp2 f c).2 = 0 ∧ f.int (sfExp2 f c).1 = some (2 ^ (k - f.unit).toNat)) ∧
    (∀ c (k : Int), f = fp32 → f.unit ≤ k → f.int c = some (2 ^ (k - f.unit).toNat) →
      (sfLog2 f c).2 = 0 ∧ f.int (sfLog2 f c).1 = some (k * 2 ^ (-f.unit).toNat)) ∧
    (∀ g ∈ boundedFns, ∀ c x d, f.int c = some x → f.value c = .fin d → g.2.2 x →
      let v := g.1.approx d
      let r := g.2.1 f c
      ((f.round .rne v).2 &&& Flags.of = 0 → ∃ z, f.int r.1 = some z ∧
        (∀ n, f.int (f.round .rne v).1 = some n →
          (within g.1 f x v n → within g.1 f x v z) ∧ (¬within g.1 f x v n → r.1 = (f.round .rne v).1)) ∧
        (isExact g.1 f x z → r.2 = 0) ∧
        (¬isExact g.1 f x z → r.2 = if r.1 % 2 ^ (f.w - 1) < 2 ^ f.mb then Flags.nx ||| Flags.uf else Flags.nx)) ∧
      ((f.round .rne v).2 &&& Flags.of ≠ 0 → r = (f.maxCode + 1, Flags.of ||| Flags.nx))) ∧
    (∀ c, f.value c ≠ .nan → (sfTanh f c).1 % 2 ^ (f.w - 1) ≤ f.bias * 2 ^ f.mb ∧ (sfErf f c).1 % 2 ^ (f.w - 1) ≤ f.bias * 2 ^ f.mb ∧
      (sfSigm f c).1 ≤ f.bias * 2 ^ f.mb) ∧
    (∀ g ∈ [sfExp2, sfLog2, sfSqrt, sfTanh, sfSigm, sfErf], ∀ a b : Nat, numLess f a b → f.value (g f a).1 ≠ .nan →
      f.value (g f b).1 ≠ .nan → numLess f (g f a).1 (g f b).1 ∨ numSame f (g f a).1 (g f b).1) ∧
    ∀ g ∈ [sfRcp, sfRsq], ∀ a b : Nat, numLess f a b → a.testBit (f.w - 1) = b.testBit (f.w - 1) → f.value (g f a).1 ≠ .nan →
      f.value (g f b).1 ≠ .nan → numLess f (g f b).1 (g f a).1 ∨ numSame f (g f b).1 (g f a).1

/-- R255, R256, R340, R341: TXATP and TXINV written by the hypervisor, or by a kernel without VIRT, take effect: the tables
and the ASID change, or an invalidation runs and clears BUSY (nothing at a reserved page, R375); a kernel's write under VIRT is recorded in GTXW and raises
the translation-write interrupt, and its translation does not change; GTXW1's read removes the oldest. -/
def Sys2Proof.Machine.translationRegistersHold : Prop :=
  (∀ (s : State) (v : W64) (kernel : Bool), (kernel = false ∨ (partOf s).pr.virt = false) → ¬ownPage s →
    exec (.txatpWrite v kernel) s = .next s ∧ exec (.txinvWrite v kernel) s = .next s) ∧
  (∀ (s : State) (v : W64) (kernel : Bool), (kernel = false ∨ (partOf s).pr.virt = false) → ownPage s →
    exec (.txatpWrite v kernel) s = .next (putTx s { txOf s with txatp := v }) ∧
    (∃ t : State, exec (.txinvWrite v kernel) s = .next t ∧ t = { s with tx := t.tx, inbox := t.inbox } ∧
      (txOf t).busy = true ∧ (txOf t).txatp = (txOf s).txatp ∧ ((txOf s).busy = true → (txOf t).txinv = 0) ∧
      (s.pcc + 1, Todo.exec s.frame.cur .txInvalidationDone) ∈ t.inbox)) ∧
  (∀ (s : State) (v : W64) (h : Nat), (partOf s).pr.virt = true → (partOf s).gtxw.length < 16 → lowHartIs (partOf s) h →
    exec (.txatpWrite v true) s = .next (irq (putTx (putPart s { partOf s with gtxw := (partOf s).gtxw ++ [(false, v)] })
      { txOf s with katp := v }) (.hart h 8 0)) ∧
    exec (.txinvWrite v true) s = .next (irq (putTx (putPart s { partOf s with gtxw := (partOf s).gtxw ++ [(true, v)] })
      { txOf s with kinv := BitVec.ofNat 64 (v.toNat / 2 ^ 12 * 2 ^ 12 + v.toNat % 4) }) (.hart h 8 0))) ∧
  (∀ s : State, exec .txInvalidationDone s = .next (putTx s { txOf s with busy := false }) ∧
    exec .gtxw1Read s = .next (putPart s { partOf s with gtxw := (partOf s).gtxw.drop 1 }))

/-- R258, R259, R370: PRQRESP of an entry its partition holds frees it, and the requests that waited for it leave the list and,
but for packets that were turned back, are tried again, and so are the partition's that were refused an entry; of another entry it changes
nothing but the register, and at a reserved page (R375) nothing. -/
def Sys2Proof.Machine.pageResponsesHold : Prop :=
  (∀ (s : State) (v : W64), ¬ownPage s → exec (.prqresp v) s = .next s) ∧
  ∀ (s : State) (v : W64), ownPage s →
    let key := 512 * dieNo s + v.toNat % 512
    let s0 := putTx s { txOf s with prqresp := BitVec.ofNat 64 (v.toNat % 1024) }
    ((SMap.find s.prq key = none ∨ ∃ q, SMap.find s.prq key = some q ∧ q.part ≠ partNo s) → exec (.prqresp v) s = .next s0) ∧
    (∀ q, SMap.find s.prq key = some q → q.part = partNo s →
      ∃ t : State, exec (.prqresp v) s = .next t ∧ SMap.find t.prq key = none ∧
        (∀ n, n ≠ key → SMap.find t.prq n = SMap.find s.prq n) ∧ t.cores = s.cores ∧ t.launches = s.launches ∧
        (∀ w ∈ t.waits, w ∈ s.waits ∧ ¬(w.cur.part = partNo s ∧ w.cur.die = dieNo s ∧ w.page = some q.page ∧ w.write = q.write)) ∧
        (v.getLsbD 9 = false → t.mem = s.mem ∧ ∀ w ∈ s.waits, w.cur.part = partNo s → w.cur.die = dieNo s →
          w.page = some q.page → w.write = q.write → w.again = true → Todo.exec w.cur w.i ∈ t.todo) ∧
        ∀ w ∈ s.waits, w.cur.part = partNo s → w.page = none → w.gives = false → Todo.exec w.cur w.i ∈ t.todo)

/-- R255, R256, R340, R341: TXATP and TXINV written by the hypervisor, or by a kernel without VIRT, take effect: the tables
and the ASID change, or an invalidation runs and clears BUSY (nothing at a reserved page, R375); a kernel's write under VIRT is
recorded in GTXW and raises the translation-write interrupt, and its translation does not change; GTXW1's read removes the oldest.
R258, R259, R370: PRQRESP of an entry its partition holds frees it, and the requests that waited for it leave the list and,
but for packets that were turned back, are tried again, and so are the partition's that were refused an entry; of another entry it changes nothing but the register, and at a reserved page
nothing. -/
def Obligations.TranslationAndPages : Prop := Sys2Proof.Machine.translationRegistersHold ∧ Sys2Proof.Machine.pageResponsesHold

/-- R337 to R339, R343, R353: a command written while another runs only makes that one end with error 2; one of a partition
that does not exist is refused with error 5, and the rest as their rules say; PART_CREATE makes a partition of its record;
PART_REMOVE of a partition without launches and PART_UPDATE_BUDGETS take their effect, a lower POWCAP cutting the caps (assumption
72); PART_RESET discards the partition's launches, queued and placed, and its dumps, zeroes its cores and its registers (that this, and
the drain before it, takes one step, and when reset-done comes, is assumption 53), and RESET_DONE ends it with its interrupts;
PART_QUIESCE lets it place no more; PART_IMPORT takes the record at the command's address and what the area behind it holds, an image
whose bytes stand there, which is what a quiesce left where its bytes still do (assumptions 14, 52), or refuses them with error 1, 3
or 4. -/
def Obligations.PartitionCommands : Prop :=
  (∀ r ∈ commandRows, ∀ s : State, s.pkg.pcmdBusy = true → exec r.1 s = .next { s with pkg := { s.pkg with again := true } }) ∧
  (∀ r ∈ commandRows, ∀ s : State, s.pkg.pcmdBusy = false → r.2 ≠ 1 → r.2 ≠ 6 → (partOf s).pr.vf = 0 →
    exec r.1 s = .next (commandEnds (commanded s r.2) 5)) ∧
  (∀ s : State, s.pkg.pcmdBusy = false → partNo s < 48 →
    ((partOf s).pr.vf ≠ 0 ∨ s.recRefused (partNo s) (recordAt s) = true →
      exec .partCreate s = .next (commandEnds (commanded s 1) 1)) ∧
    ((partOf s).pr.vf = 0 → s.recRefused (partNo s) (recordAt s) = false →
      exec .partCreate s = .next (commandEnds (putPart (commanded s 1) { pr := readPartRec (recordAt s) }).recap 0))) ∧
  (∀ s : State, s.pkg.pcmdBusy = false → (partOf s).pr.vf ≠ 0 →
    let busy := ∃ l ∈ s.launches, l.part = partNo s
    (busy → exec .partRemove s = .next (commandEnds (commanded s 2) 2)) ∧
    (¬busy → ∃ t : State, exec .partRemove s = .next t ∧ SMap.find t.parts (partNo s) = none ∧ t.cores = s.cores ∧
      t.mem = s.mem ∧ t.launches = s.launches ∧
      t.pkg = { (commandEnds (commanded s 2) 0).pkg with qps := s.pkg.qps.filter fun q => q.2.part ≠ some (partNo s) } ∧
      (∀ n, n ≠ partNo s → SMap.find t.parts n = SMap.find s.parts n) ∧
      ∀ d < 3, SMap.find t.tx (3 * partNo s + d) = none) ∧
    (s.recRefused (partNo s) (recordAt s) = false →
      let r := readPartRec (recordAt s)
      exec .partUpdateBudgets s = .next (commandEnds (putPart (commanded s 4) { partOf s with pr := { (partOf s).pr with
        occbud := r.occbud, powcap := r.powcap, safeb := r.safeb, netsh := r.netsh, stosh := r.stosh } }).recap 0)) ∧
    (∃ t : State, exec .partReset s = .next t ∧ t.pkg.pcmdBusy = true ∧ (∀ x ∈ t.launches, x.part ≠ partNo s) ∧
      (∀ d ∈ t.dumps, d.part ≠ partNo s) ∧
      (let q := t.part (partNo s)
       q.resetting = true ∧ q.pr = (partOf s).pr ∧ q.hcode = 0 ∧ q.facc = [] ∧ q.flock = false ∧ q.gtxw = []) ∧
      (∀ d < 3, (t.txAt (partNo s) d).txatp = 0 ∧ (t.txAt (partNo s) d).prqbase = 0) ∧
      (∀ e ∈ t.prq, e.2.part ≠ partNo s) ∧
      (∀ n < 576, (partOf s).pr.cores.getLsbD n = true → (t.coreAt n).ctxs = [] ∧ (t.coreAt n).scratch = [] ∧
        (t.coreAt n).larder = [] ∧ (t.coreAt n).launch = none) ∧
      (∀ w ∈ t.waits, w.cur.part ≠ partNo s) ∧ (¬busy → t.launches = s.launches) ∧
      (¬busy → (∀ w ∈ s.waits, w.gives = true → w.cur.part ≠ partNo s) → (∀ h ∈ s.pkg.held, h.part ≠ partNo s) →
        t.mem = s.mem ∧ ∀ n, (partOf s).pr.cores.getLsbD n = false → t.coreAt n = s.coreAt n) ∧
      ∃ at_, s.pcc < at_ ∧ at_ ≤ s.pcc + 12000000 ∧ (at_, Todo.exec s.frame.cur .resetDone) ∈ t.inbox) ∧
    ((partOf s).accepts 6 = true → ∃ t : State, exec .partQuiesce s = .next t ∧ (partOf t).quiesced = true ∧
      t.pkg.pcmdBusy = true ∧ t.mem = s.mem ∧ t.launches.length = s.launches.length)) ∧
  (∀ (s : State) (h : Nat), lowHartIs (partOf s) h →
    ((partOf s).resetting = true → exec .resetDone s = .next (commandEnds (irq (irq
      (putPart s { partOf s with resetting := false, quiesced := false }) (.hart h 7 0)) (.vf (partNo s) 0)) 0)) ∧
    ((partOf s).resetting = false → exec .resetDone s = .next s)) ∧
  (∀ (s : State) (a : Nat) (x : List Byte × AreaImage) (rest : List (List Byte × AreaImage)), s.pkg.areas = x :: rest →
    s.mem.readBytes a x.1.length = x.1 → s.areaAt a = some x.2) ∧
  (∀ (s : State) (a : Nat) (im : AreaImage), s.areaAt a = some im →
    (∃ x ∈ s.pkg.areas, x.2 = im ∧ s.mem.readBytes a x.1.length = x.1) ∨ s.mem.readBytes a (areaBytes im).length = areaBytes im) ∧
  (∀ s : State, s.pkg.pcmdBusy = false → 48 ≤ partNo s → exec .partImport s = .next (commandEnds (commanded s 6) 5)) ∧
  (∀ s : State, s.pkg.pcmdBusy = false → partNo s < 48 →
    let a := s.pkg.pcmd.toNat / 64 % 2 ^ 48 * 64 + 256
    let r := readPartRec (recordAt s)
    let p := { partOf s with pr := r }
    (s.recRefused (partNo s) (recordAt s) = true ∨ s.areaAt a = none →
      exec .partImport s = .next (commandEnds (commanded s 6) 1)) ∧
    ∀ im, s.recRefused (partNo s) (recordAt s) = false → s.areaAt a = some im →
    if faccOk im.p.facc = false then exec .partImport s = .next (commandEnds (commanded s 6) 3)
    else if (im.launches.all ((putPart (commanded s 6) p).canPlace (partNo s))) = false then
      exec .partImport s = .next (commandEnds (commanded s 6) 4)
    else ∃ t : State, exec .partImport s = .next t ∧ t.pkg.pcmdErr = (if s.pkg.again then 2 else 0) ∧ t.pkg.pcmdBusy = false ∧
      (∀ n, r.cores.getLsbD n = false → ∃ c, c ≤ (s.coreAt n).pwr.cap ∧
        t.coreAt n = { s.coreAt n with pwr := { (s.coreAt n).pwr with cap := c } }) ∧ (∀ n, (t.coreAt n).ctxs = (s.coreAt n).ctxs) ∧
      (partOf t).cntchg &&& im.p.cntchg = im.p.cntchg ∧ t.mem = s.mem ∧ (partOf t).pr = r ∧ (partOf t).hcode = im.p.hcode ∧ (partOf t).hentry = im.p.hentry ∧
      (partOf t).facc = im.p.facc ∧ (partOf t).cel = im.p.cel ∧ (partOf t).quiesced = false ∧
      t.launches = s.launches ++ im.launches.map fun l =>
        { l with part := partNo s, area := l.area.map fun b => b - im.base + a })

/-- A request of a function waits before the present one, which is not a word of the same write (R274). -/
def Sys2Proof.Machine.behindOne (s : State) (vf : Nat) : Prop :=
  ∃ w ∈ s.pkg.hostq, w.2.vf = vf ∧ (s.frame.cur.idx = 0 ∨ w.1.idx ≠ s.frame.cur.idx)
/-- The present request waits behind it, under a number of its own. -/
def Sys2Proof.Machine.hostHeld (s : State) (a : HostAccess) : State :=
  let id := if s.frame.cur.idx = 0 then s.ctr + 1 else s.frame.cur.idx
  { s with ctr := s.ctr + 1, pkg := { s.pkg with hostq := s.pkg.hostq ++ [({ s.frame.cur with idx := id }, a)] } }

/-- R274, R283, R341, R342, R351, R352, R354, R362, R363, R370, R375: what VFIRQ, STOCLR, FLOCK, a counter's selection, the reads of
CNTCHG, SNAP, KICK and MBXSTAT do; a KICK waits behind what of its function has been received before and waits. Nothing else changes. -/
def Sys2Proof.Machine.kernelRegistersHold : Prop :=
  ∀ (s : State) (v : W64),
    let p := partOf s
    (exec (.vfirq v) s = .next (if 4 ≤ v.toNat % 32 then irq s (.vf (partNo s) (v.toNat % 32)) else s)) ∧
    (∃ t : State, exec (.stoclr v) s = .next t ∧ t = { s with pkg := { s.pkg with stobind := t.pkg.stobind } } ∧
      ∀ n w, SMap.find s.pkg.stobind n = some w → ∃ x, SMap.find t.pkg.stobind n = some x ∧
        (∀ i < 64, i ≠ 62 → x.getLsbD i = w.getLsbD i) ∧
        x.getLsbD 62 = (w.getLsbD 62 && !(w.getLsbD 63 && decide (w.toNat % 2 ^ 16 = v.toNat % 2 ^ 16) &&
          decide (w.toNat / 2 ^ 16 % 2 ^ 6 = partNo s)))) ∧
    (let w0 := SMap.get (0 : W64) p.facc 0
     let legal := w0.toNat < 128 ∧ w0.toNat % 2 = 1 ∧ ∀ i < 3, SMap.get (0 : W64) p.facc (i + 1) = 0
     (p.flock = true ∨ v.getLsbD 0 = false → exec (.flock v) s = .next s) ∧
     (p.flock = false → v.getLsbD 0 = true → legal →
       exec (.flock v) s = .next (putPart s { p with flock := true, flockErr := false })) ∧
     (p.flock = false → v.getLsbD 0 = true → ¬legal → exec (.flock v) s = .next (putPart s { p with flockErr := true }))) ∧
    (∀ i : BitVec 4, exec (.counterSelect i v) s =
      let c := SMap.get ({} : Counter) (txOf s).counters i.toNat
      let known := v.toNat % 2 ^ 16 ∈ [1, 2, 3, 4, 5, 0x10, 0x20, 0x30, 0x31, 0x40, 0x41, 0x50]
      let d := { c with event := BitVec.ofNat 16 v.toNat, en := v.getLsbD 63, unav := decide (¬known) }
      .next (putTx s { txOf s with counters := (txOf s).counters.put i.toNat d })) ∧
    (exec .cntchgRead s = .next (putPart s { p with cntchg := 0 })) ∧
    (ownPage s → exec .dlogSnap s = .next ({ putPart s { p with dlog := { p.dlog with snap := true, busy := true } } with
      inbox := s.inbox ++ [(s.pcc + 1, .exec s.frame.cur .dlogSnapDone)] })) ∧
    (¬ownPage s → exec .dlogSnap s = .next s) ∧
    (exec .dlogSnapDone s = .next (putPart s { p with dlog := { p.dlog with busy := false } })) ∧
    (∀ h, lowHartIs p h → (∀ w ∈ s.pkg.hostq, w.2.vf ≠ p.pr.vf.toNat) →
      exec (.kick v) s = .next (irq (putPart s { p with kick := v.setWidth 32 }) (.hart h 9 0))) ∧
    (behindOne s p.pr.vf.toNat → exec (.kick v) s = .next (hostHeld s
      { vf := p.pr.vf.toNat, bar0 := true, write := true, off := 4096, len := 8, data := leBytes 8 v.toNat })) ∧
    (exec (.mbxstat v) s = .next (irq (putPart s { p with mbxstat := BitVec.ofNat 64 (v.toNat % 2 ^ 36) }) (.vf (partNo s) 2)))

/-- R6, R287, R318, R330, R332, R339, R340, R351, R362, R369, R374, R375: a write of a register stores its value with its reserved bits
zero, and one at a reserved page nothing; the accepted feature words do not change once locked; a page outside RANGES leaves MBXBASE,
and SBCTL's low 6 bits are not kept (assumption 54), which takes a control block of the partition's own core under SAMPLE; the
hypervisor assigns a queue pair through the model's own register (assumption 74). -/
def Sys2Proof.Machine.registerWritesHold : Prop :=
  (∀ (s : State) (r : DevReg) (v : W64), 48 ≤ partNo s → partNo s < 63 → exec (.registerWrite r v) s = .next s) ∧
  (∀ (s : State) (v : W64), ownPage s →
    let a := BitVec.ofNat 64 (v.toNat / 2 ^ 12 * 2 ^ 12)
    let inside := a = 0 ∨ ((partOf s).pr.holds a.toNat = true ∧ (partOf s).pr.holds (a.toNat + 4095) = true)
    (inside → exec (.registerWrite .mbxbase v) s = .next (putPart s { partOf s with mbxbase := a })) ∧
    (¬inside → exec (.registerWrite .mbxbase v) s = .next s)) ∧
  (∀ (s : State) (v : W64), ownPage s → ∀ r ∈ partRegs v, exec (.registerWrite r.1 v) s = .next (putPart s (r.2 (partOf s)))) ∧
  (∀ (s : State) (v : W64) (i : BitVec 2), ownPage s →
    exec (.registerWrite (.facc i) v) s = .next (if (partOf s).flock then s
      else putPart s { partOf s with facc := (partOf s).facc.put i.toNat v })) ∧
  (∀ (s : State) (v : W64), ownPage s →
    exec (.registerWrite .prqbase v) s = .next (putTx s { txOf s with prqbase := BitVec.ofNat 64 (v.toNat / 2 ^ 14 * 2 ^ 14) }) ∧
    exec (.registerWrite .pcmd v) s = .next { s with pkg := { s.pkg with pcmd := BitVec.ofNat 64 (v.toNat / 64 % 2 ^ 48 * 64) } } ∧
    exec (.registerWrite .jname v) s = .next { s with jname := s.jname.put s.frame.cur.hart (BitVec.ofNat 64 (v.toNat % 2 ^ 48)) } ∧
    exec (.registerWrite .hevrd v) s = .next { s with pkg := { s.pkg with hevrd := v.setWidth 32 } }) ∧
  (∀ (s : State) (v : W64) (n : BitVec 13), ownPage s →
    let pair : QueuePair := { part := if v.getLsbD 63 = true then some (v.toNat % 64) else none, ud := v.getLsbD 6 }
    exec (.registerWrite (.qpair n) v) s = .next { s with pkg := { s.pkg with qps := s.pkg.qps.put n.toNat pair } }) ∧
  (∀ (s : State) (v : W64), ((partOf s).accepts 5 = false ∨ (partOf s).pr.cores.getLsbD (coreNo s) = false) →
    exec (.sbctlWrite v) s = .next s) ∧
  (∀ (s : State) (v : W64), (partOf s).accepts 5 = true → (partOf s).pr.cores.getLsbD (coreNo s) = true →
    ∃ t : State, exec (.sbctlWrite v) s = .next t ∧ coreOnly s t ∧ t.core.tr.sbctl = BitVec.ofNat 64 (v.toNat / 64 * 64) ∧
      t.core.tr.unrec = 0 ∧ t.core.ctxs = s.core.ctxs ∧ t.core.tr.ring = s.core.tr.ring)

/-- R344, R345: a DRAM command of the partition adds its charge to OCCUSE, 192 for an activation, 10 for a burst and 64 for
a turnaround in sixteenths of a nanosecond, and past OCCBUD the partition is at background priority; a window's end
moves OCCUSE to OCCLAST and clears it. No core and no memory changes. -/
def Sys2Proof.Machine.occupancyChargesHold : Prop :=
  (∀ (s : State) (c : DramCmd), (∀ b, c ≠ .overhead b) →
    let n := match c with | .activate => 192 | .readBurst => 10 | .writeBurst => 10 | .turnaround => 64 | .overhead _ => 0
    ∃ t : State, exec (.dramCommand c) s = .next t ∧ t.cores = s.cores ∧ t.mem = s.mem ∧ t.launches = s.launches ∧
      (partOf t).occuse = (partOf s).occuse + n ∧ (partOf t).pr = (partOf s).pr ∧
      (partOf t).bg = ((partOf s).bg || ((partOf s).pr.occbud != BitVec.ofNat 64 (2 ^ 64 - 1) &&
        decide (16 * (partOf s).pr.occbud.toNat < (partOf s).occuse + n))) ∧
      ((partOf s).bg = false → (partOf t).bg = true → (partOf t).bgAt = s.pcc)) ∧
  (∀ s : State, exec (.dramCommand (.overhead none)) s = .next s) ∧
  (∀ (s : State) (burst : Bool),
    let w := (SMap.get (0 : BitVec 16) s.pkg.weights (16 * (Config.controllerSet % 8) + (if burst then 13 else 12))).toNat
    exec (.dramCommand (.overhead (some burst))) s = .next { s with pkg := { s.pkg with ovhenergy := s.pkg.ovhenergy + w } }) ∧
  (∀ s : State, s.pcc % 300000 = 0 →
    let ended := fun (p : Nat × Partition) => (p.1, { p.2 with occlast := p.2.occuse, occuse := 0, bg := false })
    exec .occupancyWindowEnd s = .next { s with parts := s.parts.map ended }) ∧
  (∀ s : State, s.pcc % 300000 ≠ 0 → exec .occupancyWindowEnd s = .next s)

/-- R355, R367, R368, R374: a flit's eighth unanswered replay fails its boundary, and so does a loss of lane lock of more than
300 PCC cycles; a failure of one that no placed launch spans changes LINKSTAT alone, with its host event, and one that a launch
spans stops every context of it that has not ended; a further failure of one that has failed, or a replay on one not up, changes nothing (assumption 56); the
replay count and the time without lane lock stand in the cursor's index (assumption 17); a failed boundary whose RETRAIN
bit is written trains, for at most 50 ms, and its training ends up or failed. -/
def Obligations.BoundaryStates : Prop :=
  (∀ (s : State) (b : BitVec 2),
    (s.frame.cur.idx < 8 ∨ SMap.get 0 s.pkg.link b.toNat ≠ 0 → exec (.flitReplay b) s = .next s) ∧
    (8 ≤ s.frame.cur.idx → SMap.get 0 s.pkg.link b.toNat = 0 →
      exec (.flitReplay b) s = .next { s with todo := s.todo ++ [.exec { s.frame.cur with idx := 0 } (.linkFailure b)] })) ∧
  (∀ (s : State) (b : BitVec 2), ¬fails s b → exec (.linkFailure b) s = .next s) ∧
  (∀ (s : State) (b : BitVec 2) (l : Launch), fails s b → (s.launches.filter fun l => l.status == .placed && l.spans b) = [l] →
    (∀ n ∈ l.cores, ∀ c < 4, ((s.coreAt n).ctx c).xfers = []) →
    ∃ t : State, exec (.linkFailure b) s = .next t ∧ SMap.get 0 t.pkg.link b.toNat = 1 ∧
      (∀ n ∈ l.cores, ∀ c < 4, ((s.coreAt n).ctx c).status ≠ .halted → ((s.coreAt n).ctx c).status ≠ .absent →
        ((t.coreAt n).ctx c).status = .stopped) ∧
      (∀ n, n ∉ l.cores → t.coreAt n = s.coreAt n) ∧ t.dumps = s.dumps) ∧
  (∀ (s : State) (b : BitVec 2), fails s b → (∀ l ∈ s.launches, l.status = .placed → l.spans b = false) →
    ∃ t : State, exec (.linkFailure b) s = .next t ∧ SMap.get 0 t.pkg.link b.toNat = 1 ∧ t.cores = s.cores ∧
      t.launches = s.launches) ∧
  (∀ (s : State) (v : W64), ∃ t : State, exec (.linkctlRetrain v) s = .next t ∧ t.cores = s.cores ∧
    ∀ b < 3,
      let trains := v.getLsbD b = true ∧ SMap.get 0 s.pkg.link b = 1
      SMap.get 0 t.pkg.link b = (if trains then 2 else SMap.get 0 s.pkg.link b) ∧
      (trains → ∃ at_ up, s.pcc < at_ ∧ at_ ≤ s.pcc + 150000000 ∧
        (at_, Todo.exec s.frame.cur (.linkTrainingEnd (BitVec.ofNat 2 b) up)) ∈ t.inbox)) ∧
  (∀ (s : State) (b : BitVec 2) (up : Bool), ∃ t : State, exec (.linkTrainingEnd b up) s = .next t ∧ t.cores = s.cores ∧
    SMap.get 0 t.pkg.link b.toNat =
      (if SMap.get 0 s.pkg.link b.toNat = 2 then (if up then 0 else 1) else SMap.get 0 s.pkg.link b.toNat))

/-- R372, R373, R375, R377: power-good begins boot at stage 1; a stage that completes is followed by the next with its
measurement recorded, and one that fails sets the error, after stage 2 the compute cores being unavailable and boot going on, as
after stage 3 (assumption 57); an attestation answers evidence, which begins with the nonce (assumption 58); PKGCAP is clamped to
the form's limit, and the assigned caps are cut to it (assumption 72); a GN-TY3-M's trip holds from each excess for at least 10 ms,
and on a GN-TY3-P there is none (assumption 59). -/
def Sys2Proof.Machine.packageStepsHold : Prop :=
  (∀ s : State, exec .powerGood s =
    .next (irq { s with pkg := { s.pkg with stage := 1, bootErr := 0, noCores := false, measures := [] } } (.pf0 1))) ∧
  (∀ s : State, (s.pkg.stage = 0 ∨ 5 ≤ s.pkg.stage ∨ s.pkg.bootErr = 1 ∨ s.pkg.bootErr = 4) → ∀ ok, exec (.bootStageComplete ok) s = .next s) ∧
  (∀ s : State, 1 ≤ s.pkg.stage → s.pkg.stage < 5 → s.pkg.bootErr ≠ 1 → s.pkg.bootErr ≠ 4 →
    (∃ m mem, (s.pkg.stage ≠ 4 → mem = s.mem) ∧
      let pkg := { s.pkg with stage := s.pkg.stage + 1, measures := s.pkg.measures ++ [m] }
      exec (.bootStageComplete true) s = .next (irq { s with ctr := s.ctr + 1, pkg := pkg, mem := mem } (.pf0 1))) ∧
    (∃ t : State, exec (.bootStageComplete false) s = .next t ∧ t.cores = s.cores ∧
      t.pkg.bootErr = (if s.pkg.bootErr = 0 ∨ s.pkg.stage = 4 then s.pkg.stage else s.pkg.bootErr) ∧
      t.pkg.measures.length = s.pkg.measures.length + 1 ∧ t.pkg.noCores = (s.pkg.noCores || decide (s.pkg.stage = 2)) ∧
      t.pkg.stage = (if s.pkg.stage = 2 ∨ s.pkg.stage = 3 then s.pkg.stage + 1 else s.pkg.stage) ∧
      (Irq.pf0 1) ∈ t.irqs)) ∧
  (∀ (s : State) (nonce : W256), ∃ e, exec (.attestationRequest nonce) s = .next { s with pkg := { s.pkg with evidence := e } } ∧
    e.take 32 = (List.range 32).map fun i => BitVec.ofNat 8 (nonce.toNat / 2 ^ (8 * i))) ∧
  (∀ (s : State) (v : W64),
    let cap := min (if s.pkg.gnM then 2800000 else 2550000) (v.toNat % 2 ^ 32)
    exec (.pkgcap v) s = .next ({ s with pkg := { s.pkg with pkgcap := cap } } : State).recap) ∧
  (∀ s : State, s.pkg.gnM = true → ∃ t : State, exec .moduleInputTrip s = .next t ∧ t.pkg.trip = true ∧ t.pkg.tripAt = s.pcc ∧
    t.cores = s.cores) ∧
  (∀ s : State, s.pkg.gnM = false → exec .moduleInputTrip s = .next s) ∧
  (∀ s : State, s.pkg.trip = true → s.pkg.tripAt + 30000000 ≤ s.pcc →
    ∃ t : State, exec .moduleTripClear s = .next t ∧ t.pkg.trip = false ∧ t.cores = s.cores) ∧
  (∀ s : State, (s.pkg.trip = false ∨ s.pcc < s.pkg.tripAt + 30000000) → exec .moduleTripClear s = .next s)

/-- R254, R351, R361, R362, R369 to R371, R375: a queue pair's access that translates reads, or writes, the memory of the partition
the pair is assigned to, an atomic what its operation gives; one of an unassigned pair, without NET accepted, or in error, is refused
(its status is assumption 55), and another partition's request is none of the pair's (assumption 74); a faulting inbound RC write or UD
packet whose page request is queued is counted and changes no register (assumption 55); a faulting access waits for its page, or, refused
a request, for an entry to free. A requester's access under its one valid binding does the same under STOR, but that a write which finds
the buffer full puts its binding in error; an unbound one does nothing. A host write of one aligned word through a function lands in its partition's mailbox page or at its offset
of the RANGES; of a longer one each word lands now or waits, by a free choice (assumption 12); a read is answered with their bytes (one
of the mailbox with MBXBASE zero is assumption 54), and an access past RANGES or BAR2, or of a function without a partition, is
unsupported; one with a PASID is malformed. A request waits behind one of its function that waits, but for a posted write with Relaxed
Ordering (R274). -/
def Obligations.PortAccesses : Prop :=
  (∀ (s : State) (r : NetReq) (p : Nat), (qpOf s r).part = some p → p ≠ partNo s → r.inbound = false →
    exec (.networkWorkRequest r) s = .next s) ∧
  (∀ (s : State) (r : NetReq), (qpOf s r).part = none → exec (.networkWorkRequest r) s =
    .next { s with pkg := { s.pkg with qps := s.pkg.qps.put r.qp { qpOf s r with status := 2 } } }) ∧
  (∀ (s : State) (r : NetReq), (qpOf s r).part = some (partNo s) → ((qpOf s r).err = true ∨ (partOf s).accepts 3 = false) →
    exec (.networkWorkRequest r) s =
      .next { s with pkg := { s.pkg with qps := s.pkg.qps.put r.qp { qpOf s r with status := 2 } } }) ∧
  (∀ (s : State) (r : NetReq), pairReady s r → s.vcheck (partNo s) (dieNo s) r.va r.len r.write = none →
    let ends := fun (m : Memory) => ∃ t : State, exec (.networkWorkRequest r) s = .next t ∧ portFrame s t ∧ t.mem = m ∧
      SMap.get ({} : QueuePair) t.pkg.qps r.qp = { qpOf s r with status := 0 }
    (r.write = false → ends s.mem) ∧
    (r.write = true → r.atomic = false → ∀ u, s.vwrite (partNo s) (dieNo s) r.va r.data = .ok u → ends u.mem) ∧
    (r.atomic = true → ∀ l u, s.vread (partNo s) (dieNo s) r.va 8 = .ok l →
      s.vwrite (partNo s) (dieNo s) r.va (leBytes 8 (atomicLeaves r.op (BitVec.ofNat 64 (leNat l))).toNat) = .ok u → ends u.mem)) ∧
  (∀ (s : State) (r : NetReq) (e : W64), pairReady s r → s.vcheck (partNo s) (dieNo s) r.va r.len r.write = some e →
    ∃ (t : State) (asked : Bool), exec (.networkWorkRequest r) s = .next t ∧ t.cores = s.cores ∧ t.launches = s.launches ∧
      faultWaits t (partNo s) e asked (.networkWorkRequest r) r.write ∧
      SMap.get ({} : QueuePair) t.pkg.qps r.qp = (
        if asked = false ∨ r.inbound = false ∨ (r.ud = false ∧ r.op ≠ .send ∧ r.op ≠ .write) then qpOf s r
        else if r.ud = true then { qpOf s r with drops := (qpOf s r).drops + 1 }
        else { qpOf s r with rnr := (qpOf s r).rnr + 1 })) ∧
  (∀ (s : State) (r : DmaReq), s.binding r.rid = none → exec (.storageDma r) s = .next s) ∧
  (∀ (s : State) (r : DmaReq) (part : Nat), s.binding r.rid = some part →
    ((s.part part).accepts 4 = false → exec (.storageDma r) s = .next s) ∧
    ((s.part part).accepts 4 = true → (s.part part).accepts 2 = false → (s.part part).bg = false → (∀ w ∈ s.waits, w.gives = false) →
      s.vcheck part (dieNo s) r.va r.len r.write = none →
      (r.write = false → ∃ t : State, exec (.storageDma r) s = .next t ∧ portFrame s t ∧ t.mem = s.mem) ∧
      (r.write = true → ∀ u, s.vwrite part (dieNo s) r.va r.data = .ok u →
        ∃ t : State, exec (.storageDma r) s = .next t ∧ portFrame s t ∧ t.mem = u.mem)) ∧
    (∀ e, (s.part part).accepts 4 = true → (s.part part).bg = false → (∀ w ∈ s.waits, w.gives = false) →
      s.vcheck part (dieNo s) r.va r.len r.write = some e →
      let full := r.write = true ∧ 262144 < (s.waits.map fun w => match w.i with
        | .storageDma q => if q.write = true ∧ w.cur.part = part then q.len else 0
        | _ => 0).sum + r.len
      ∃ (t : State) (asked : Bool), exec (.storageDma r) s = .next t ∧ t.cores = s.cores ∧ t.launches = s.launches ∧
        (asked = true → pageAsked t part e r.write) ∧ (full → t.waits = s.waits ∧ t.binding r.rid = none) ∧
        (¬full → t.pkg.stobind = s.pkg.stobind ∧ faultWaits t part e asked (.storageDma r) r.write))) ∧
  (∀ (s : State) (a : HostAccess),
    (a.pasid = true → exec (.hostFunctionAccess a) s = .next { s with pkg := { s.pkg with reply := some .malformed } }) ∧
    (a.pasid = false → s.vfPart a.vf = none →
      exec (.hostFunctionAccess a) s = .next { s with pkg := { s.pkg with reply := some .unsupported } })) ∧
  (∀ (s : State) (a : HostAccess) (part : Nat), a.pasid = false → s.vfPart a.vf = some part → (a.write = false ∨ a.relaxed = false) →
    behindOne s a.vf → exec (.hostFunctionAccess a) s = .next (hostHeld s a)) ∧
  (∀ (off : Nat) (bs : List Byte), (hostWords off bs).flatMap (·.2) = bs ∧
    ∀ w ∈ hostWords off bs, w.2 ≠ [] → w.1 / 8 = (w.1 + w.2.length - 1) / 8) ∧
  (∀ (s : State) (a : HostAccess) (part : Nat), a.pasid = false → s.vfPart a.vf = some part → (s.part part).bg = false →
    s.frame.cur.idx = 0 → (∀ w ∈ s.pkg.hostq, w.2.vf ≠ a.vf) →
    let p := s.part part
    (a.bar0 = true → a.write = true → p.mbxbase ≠ 0 → p.dlog.en = false → a.off + a.data.length ≤ 4096 →
      8 < a.off % 8 + a.data.length → ∃ (t : State) (now : Nat → Bool),
        let ws := (hostWords a.off a.data).zipIdx
        exec (.hostFunctionAccess a) s = .next t ∧ t.cores = s.cores ∧ t.parts = s.parts ∧
          t.mem = (ws.filter fun w => now w.2).foldl (fun m w => m.writeBytes (p.mbxbase.toNat + w.1.1) w.1.2) s.mem ∧
          (t.pkg.hostq.map fun w => (w.2.vf, w.2.off, w.2.data)) = (s.pkg.hostq.map fun w => (w.2.vf, w.2.off, w.2.data)) ++
            (ws.filter fun w => !now w.2).map fun w => (a.vf, w.1.1, w.1.2)) ∧
    (a.bar0 = true → a.write = true → a.off < 4096 → a.off % 8 + a.data.length ≤ 8 →
      (p.mbxbase = 0 → exec (.hostFunctionAccess a) s = .next s) ∧
      (p.mbxbase ≠ 0 → p.dlog.en = false → exec (.hostFunctionAccess a) s =
        .next { s with mem := s.mem.writeBytes (p.mbxbase.toNat + a.off) (a.data.take (4096 - a.off)) })) ∧
    (a.bar0 = true → a.write = true → a.off = 4096 → ∀ h, lowHartIs p h → exec (.hostFunctionAccess a) s =
      .next (irq (s.setPart part { p with kick := BitVec.ofNat 32 (leNat a.data) }) (.hart h 9 0))) ∧
    (a.bar0 = true → a.write = false → ∃ t l, exec (.hostFunctionAccess a) s = .next t ∧ t.pkg.reply = some (.data l) ∧
      l.length = a.len ∧ t.mem = s.mem ∧ t.parts = s.parts ∧ t.cores = s.cores ∧
      (p.mbxbase ≠ 0 → a.off + a.len ≤ 4096 → l = s.mem.readBytes (p.mbxbase.toNat + a.off) a.len)) ∧
    (a.bar0 = false → (let n := a.off + (if a.write then a.data.length else a.len); p.pr.total < n ∨ 2 ^ 36 < n) →
      exec (.hostFunctionAccess a) s = .next { s with pkg := { s.pkg with reply := some .unsupported } }) ∧
    (∀ b pa, a.bar0 = false → a.write = true → a.data = [b] → a.off < p.pr.total → a.off < 2 ^ 36 → rangeAt p.pr.ranges a.off = some pa →
      p.dlog.en = false → exec (.hostFunctionAccess a) s = .next { s with mem := s.mem.write pa b }) ∧
    (∀ pa, a.bar0 = false → a.write = false → a.len = 1 → a.off < p.pr.total → a.off < 2 ^ 36 → rangeAt p.pr.ranges a.off = some pa →
      exec (.hostFunctionAccess a) s = .next { s with pkg := { s.pkg with reply := some (.data [s.mem.read pa]) } }))

namespace Sys2Proof.Machine

/-! ## Reset, encodings and the step (R4, R35, R64, R69, R78, R206, R239, R242) -/

/-- What a package cold reset keeps of a core: the survival depths of its rows and the map's generation (R235). -/
def coldCore (k : Core) : Core := { rows := { depth := k.rows.depth, ldepth := k.rows.ldepth, gen := k.rows.gen } }

/-- A user context's bundle is issued: the frame its slots are performed in (R55, R71). -/
def issueFrame (s0 : State) (p : Packet) : Frame :=
  let b := Packet.bundle p s0.arch.pc
  { cur := s0.frame.cur, hdr := b.hdr, li := b.li, rest := if b.hdr.s then b.li.dropLast else b.li, pc := s0.arch.pc,
    fall := b.fall, cyc0 := s0.core.cyc, cyc1 := s0.core.cyc, banks := banksOf b.slots, calls := callsOf b.slots }

/-- Words of the spec's own encodings (R63, R69, R78), the class of the slot that reads them, and what they stand for: a
move of s4 to s5, of the port SA0.q to s9, an ADD of slot 0 triggered with s4, an extended ADD, HALT, RECW, MCALL of engine
0, an extended ST.W, LD.W, PNZ p1, a VFADD rounding toward zero, CPY. -/
noncomputable def specWords : List (Cls × Word24 × Instr) := [
  (.c0, 0x00100A, .move ⟨⟨false, 0⟩, 4⟩ 5),
  (.c0, 0x024012, .move ⟨⟨false, 0⟩, 0x90⟩ 9),
  (.c0, 0x001250, .add ⟨⟨false, 0⟩, 4⟩),
  (.c0, 0x0012F0, .addExt ⟨⟨false, 0⟩, 4⟩),
  (.c0, 0x078244, .halt ⟨false, 0⟩),
  (.c0, 0x078240, .recw ⟨⟨false, 0⟩, 0x1E0⟩),
  (.c6, 0x078224, .mcall ⟨⟨false, 0⟩, 0x1E0⟩ false),
  (.c4, 0x07C2D2, .stWExt ⟨⟨false, 0⟩, 0x1F0⟩),
  (.c4, 0x07C228, .ldW ⟨⟨false, 0⟩, 0x1F0⟩),
  (.c0, 0x001362, .pnz ⟨⟨false, 0⟩, 4⟩ 1),
  (.c2, 0x014222, .vfadd ⟨⟨false, 0⟩, 0x50⟩ .rtz),
  (.c7, 0x001220, .cpy ⟨⟨false, 0⟩, 4⟩)]
/-- Store words of R206 and what they stand for. -/
noncomputable def specMicros : List (W32 × Instr) := [
  (0x00000000, .mend), (0x10000000, .msela 0), (0x20000001, .mselb 1), (0x40020001, .msetx 1 0x20), (0x90000020, .macc 0 0 true),
  (0xA0000800, .mmac 0 0 0 0 1), (0xF0000000, .mnop)]

end Sys2Proof.Machine

/-- R9, R10, R12, R23, R25, R31, R35, R133, R239, R242: after package cold reset the PCC is 0, every core is at OP6 with
requested point 6 and ceiling 6, every scratch and Larder byte is zero, no engine is held, no context is present, and every
register of every context is at its reset value with its written bit clear: both faces zero, tag NONE, p0 reading 1. -/
def Obligations.ResetLeaves : Prop :=
  let s := State.reset
  s.pcc = 0 ∧
    ∀ n : Nat, (s.coreAt n).pwr.op = 6 ∧ (s.coreAt n).pwr.req = 6 ∧ (s.coreAt n).pwr.ceiling = 6 ∧
      (∀ a : Nat, (s.coreAt n).scratch.read a = 0 ∧ (s.coreAt n).larder.read a = 0) ∧
      (∀ e : Bool, ((s.coreAt n).eng e).holder = 7 ∧ ((s.coreAt n).eng e).cfg = none ∧ ((s.coreAt n).eng e).busy = false) ∧
      ∀ c : Nat,
        let x := (s.coreAt n).ctx c
        x.status = .absent ∧ x.timer = none ∧ x.cur.sclk = 0 ∧ x.cur.nti = 0 ∧ x.cur.loops = [] ∧ x.cur.mpc = 0 ∧ x.cur.hsel = 0 ∧
          (∀ i : Nat, x.cur.regs.getS i = { vis := 0, hid := 0 } ∧ x.cur.regs.getA i = { vis := 0, hid := 0 } ∧
            x.cur.regs.getV i = { vis := { val := 0, tag := 0 }, hid := { val := 0, tag := 0 } } ∧
            x.cur.regs.getP i = { vis := i == 0, hid := i == 0 } ∧ x.cur.regs.getM i = { vis := 0, hid := 0 } ∧
            x.cur.regs.getNt i = { vis := 0, hid := 0 } ∧ x.cur.regs.getAm i = { vis := 0, hid := 0 } ∧
            x.cur.regs.getAcc i = { vis := { val := 0, tag := 0 }, hid := { val := 0, tag := 0 } } ∧
            x.cur.port i = { val := 0, tag := 0 }) ∧
          x.cur.regs.flg = { vis := 0, hid := 0, wr := false, acc := 0, clr := 0 }

/-- R235, R237, R242, R372: a package cold reset leaves every step's state as after reset, but for what it keeps: each core's
survival depths and the map's signature, the package's form and its power limit. -/
def Obligations.ColdResetResults : Prop :=
  ∀ s : State, ∃ t : State, exec .coldReset s = .next t ∧
    t.pkg = { gnM := s.pkg.gnM, pkgcap := if s.pkg.gnM then 2800000 else 2550000, mapSig := s.pkg.mapSig } ∧ t.cores = s.cores.map (fun k => (k.1, coldCore k.2)) ∧
    t = { State.reset with cores := t.cores, pkg := t.pkg, ctr := s.ctr }

/-- Assumption 1: main memory after reset is in canonical form. -/
def Obligations.ResetMemoryCanonical : Prop := State.reset.mem.wf = true

/-- A step runs what is due. An instruction due at a place is run there, but for one that a failed boot, or one not yet
at stage 5, leaves without effect (R372); with nothing due a step is the tick of the PCC; a
slot word, performed in its slot, is the instruction it decodes to; an engine that has reached a store word runs the
micro-operation it decodes to; and a user context's legal bundle that issues, unsplit, with no error raised, is its executed
slots performed in the bundle's frame, then the bundle's end, where the segments its checks read are kept for a replay (R55, R69,
R82, R206). -/
def Obligations.StepRunsDecoded : Prop :=
  (∀ (s : State) (cur : Cursor) (i : Instr) (rest : List Todo), s.todo = .exec cur i :: rest →
    (s.responds i = true → step s = exec i { s with todo := rest, frame := { s.frame with cur := cur } }) ∧
    (s.responds i = false → step s = .next { s with todo := rest }) ∧
    (s.pkg.bootErr ≠ 1 → 5 ≤ s.pkg.stage → s.responds i = true)) ∧
  (∀ s : State, s.todo = [] → step s = .next s.tick) ∧
  (∀ (s t : State) (w : Word24) (i : Instr), decodeSlot (Cls.ofSlot s.frame.cur.slot) w = some i → exec i s = .next t →
    s.runWord w = t) ∧
  (∀ (s : State) (cur : Cursor) (rest : List Todo) (r : Routine) (i : Instr), s.todo = .micro cur :: rest →
    let s1 : State := { s with todo := rest, frame := { s.frame with cur := cur } }
    (engOf s1 cur.eng).run = some r → r.ending = false → decodeMicro (SMap.get 0 (engOf s1 cur.eng).store r.upc) = some i →
    step s = exec i s1) ∧
  (∀ (s : State) (c : Nat) (p : Packet), mayIssue s c p →
    let s0 := issueState s c
    let b := Packet.bundle p s0.arch.pc
    illegalDetail false s0.arch.bind p b = none → (∀ x ∈ b.slots, s0.guard (Slot.ofWord x.2).gd = true) → b.slots ≠ [] →
    s0.arch.mpc = 0 → s.core.rows.errs = [] → s.core.pwr.gov = .none →
    let s1 := { s0 with frame := { issueFrame s0 p with cyc1 := s.core.cyc } }
    let t := s1.runSlots (b.hdr.f && b.hdr.w) b.slots
    s1.headErrs b.hdr b.li = [] → t.frame.raised = [] →
    ∃ l, exec .bundleIssue s =
      .next ((t.keepChecks l).commit (b.slots.any fun x => x.1 == 6 && (trigOf .c6 (slotDst x.2)).isSome)))

/-- R63, R69, R78, R206: words written out from the spec's encodings decode to the instructions they stand for. -/
def Obligations.DecodesWords : Prop :=
  (∀ x ∈ specWords, decodeSlot x.1 x.2.1 = some x.2.2) ∧ (∀ x ∈ specMicros, decodeMicro x.1 = some x.2)

/-- R69, R70, R78, R99: every well-formed instruction of a slot encodes to a word, whose bit 0 is 0, that its class decodes
to it, with every field at every value; and a word with bit 0 set decodes to nothing. -/
def Obligations.SlotRoundTrip : Prop :=
  (∀ (i : Instr) (c : Cls) (w : Word24), i.wf = true → encodeSlot i = some (c, w) →
    decodeSlot c w = some i ∧ w.getLsbD 0 = false) ∧
  (∀ (c : Cls) (w : Word24) (i : Instr), decodeSlot c w = some i → ∃ c' w', encodeSlot i = some (c', w') ∧
    slotDst w' = slotDst w ∧ (Slot.ofWord w').gd = (Slot.ofWord w).gd) ∧
  (∀ (c : Cls) (w : Word24), w.getLsbD 0 = true → decodeSlot c w = none)

/-- R206: encoding a micro-operation and decoding the word gives it back, with every field at every value, and a word that
decodes is the encoding of what it decodes to: its reserved bits are 0. -/
def Obligations.MicroRoundTrip : Prop :=
  (∀ (i : Instr) (w : W32), encodeMicro i = some w → decodeMicro w = some i) ∧
  (∀ (w : W32) (i : Instr), decodeMicro w = some i → encodeMicro i = some w)

/-- Every step of the machine keeps main memory in its canonical form. -/
def Obligations.StepKeepsMemory : Prop :=
  ∀ s t : State, s.mem.wf = true → step s = .next t → t.mem.wf = true

/-- R157, R255, R262: no instruction of a slot but RECW, which writes the sample buffer, changes main memory; and none
changes the scratch or the Larder of its core in its own bundle, another core, the translation registers, the dumps or the
PCC: what it stores performs later. -/
def Obligations.SlotOpsLeaveMemory : Prop :=
  ∀ (i : Instr) (s t : State), (slotParts i).isSome = true → (∀ w, i ≠ .recw w ∧ i ≠ .recwExt w) → exec i s = .next t →
    t.mem = s.mem ∧ t.pcc = s.pcc ∧ t.tx = s.tx ∧ t.dumps = s.dumps ∧ t.todo = s.todo ∧
      t.core.scratch = s.core.scratch ∧ t.core.larder = s.core.larder ∧ (∀ n, n ≠ coreNo s → t.coreAt n = s.coreAt n)

/-- R115, R116: each scalar trigger that executes delivers f_T(a, b, c) mod 2^32 at SAn.q, L schedule cycles after issue,
with SAT where ADD.S or SUB.S clamps; nothing else changes. R117: each address trigger that executes delivers f_T(a, b, c)
mod 2^64 at AU.q one schedule cycle after issue; nothing else changes. R118: PNZ pk writes hid(pk) with whether any bit of the source
is set, DW where pk is already written in the phase; p1 to p14 of a user context, p1 to p3 of the handler; nothing else
changes. In the handler a larger k is an illegal bundle. -/
def Obligations.ScalarAndPredicateResults : Prop :=
  Sys2Proof.Machine.scalarResultsHold ∧ Sys2Proof.Machine.addressResultsHold ∧ Sys2Proof.Machine.pnzResultsHold

/-- R70, R12, R14 to R16, R20, R44, R47: a move that executes writes exactly its destination: the hidden face of a
register, narrowed to its width, with DW where it was already written in the phase; nothing of p0; bits 63 and 47 to 0 of
a next-tile register; the magnitude in an am register; the clear mask of FLG; HSEL[14:0]; an mp register of the
engine its context holds, else an engine-holder error; an operand port. Nothing else changes. R70, R74, R78, R85: a move that
executes and may not read its source or write its destination raises an illegal bundle on its slot and writes nothing. -/
def Obligations.MoveResults : Prop := Sys2Proof.Machine.moveResultsHold ∧ Sys2Proof.Machine.moveRefusedHold

/-- R121, R122: BR, BRI, CALL, CALLI and RET make their target the next bundle, or raise the error R67 gives a target;
CALL and CALLI write the link to hid(a15). Nothing else changes. R124, R126, R127, R130 to R134, R184: what LOOP, LEXIT,
MPCSET, BAR, WAITBM, WAITWP, TRAP, ERET, TIMERSET, RDSCHED and HALT do where they may stand. Nothing else changes. That the
port form of ERET takes its target from CTL.x as it stands is assumption 65, and what LOOP with count 0 does at the ends of
enclosing levels assumption 29. -/
def Obligations.ControlResults : Prop := Sys2Proof.Machine.transferResultsHold ∧ Sys2Proof.Machine.controlResultsHold

/-- R157, R159, R160: each load whose range lies in the scratch at its alignment is queued for the core cycle after its
bundle, to deliver at LSn.q 3 schedule cycles after issue; nothing else changes. R157, R159, R162: each store, VSTM and
FILL whose range lies in the scratch at its alignment is queued with its bytes for the second core cycle after its bundle;
nothing else changes. -/
def Obligations.LoadAndStoreResults : Prop := Sys2Proof.Machine.loadResultsHold ∧ Sys2Proof.Machine.storeResultsHold

/-- R161: each atomic on an aligned word of the scratch is queued as a store is, to deliver the old word 4 schedule cycles
after issue; nothing else changes. R163, R164: LDSC counts its N entries as outstanding and queues them for its store
cycle; WPSET queues its watchpoint for its store cycle; nothing else changes. -/
def Obligations.AtomicAndWatchResults : Prop := Sys2Proof.Machine.atomicResultsHold ∧ Sys2Proof.Machine.scaleAndWatchpointResultsHold

/-- R157, R159, R160: a load performed puts the little-endian value of its bytes in flight to its port, sign-extended to
32 bits where it is a signed load, with its tag; it writes nothing. R157, R159, R162: a store performed writes its bytes
from its address on, those masked off left; every other byte of the scratch reads as before. R161: an atomic performed
writes the word its operation gives of the old word and its operands, none where a compare fails, and puts the old word in
flight; every other byte of the scratch reads as before. -/
def Obligations.AccessesPerform : Prop := Sys2Proof.Machine.loadPerformsHold ∧ Sys2Proof.Machine.storePerformsHold ∧ Sys2Proof.Machine.atomicPerformsHold

/-- R169 to R180: CPY, CPYS, XFER, SHAPE, DCT, CBCLR and WPCLR with their operands in order each queue their command or
take their effect, with a record of TYPE 5; nothing else changes. R181, R182: CATOM of an aligned address waits for its
answer (its PCC is a free choice), with a record of TYPE 5; SIGNAL is queued for its store cycle; GMARK puts a record of
TYPE 7 in the ring. Nothing else changes. -/
def Obligations.CopyAndSystemResults : Prop := Sys2Proof.Machine.copyCommandResultsHold ∧ Sys2Proof.Machine.catomAndSystemResultsHold

/-- R190 to R200, R209: MCFG, MDRAIN, CLAIM, RELEASE, MPUT, MLGET, MZERO, MGET and MPSW where their holder rule and
operands are in order, each in its own context: what each writes, and nothing else; MGET delivers each element times the tensor scale,
rounded once, with its flags, or the INT32 row (R110). R201, R202, R210: MCALL of an engine its context holds that is not Busy raises
the error of the first check that fails, and where all pass makes the engine Busy with its routine (a table entry with reserved bits, an
MMAC of no elements, assumption 92; the slots it reads, assumption 86; MLOOP in two open levels, assumption 85; the sparsity's multiples
of 4, assumption 37); LEND and RECLAIM bind a bank from the next bundle on, where no slot of the bundle writes it. Nothing else
changes. -/
def Obligations.EngineCommandResults : Prop := Sys2Proof.Machine.engineCommandResultsHold ∧ Sys2Proof.Machine.callAndBindResultsHold

/-- R20, R41, R49: a flip, plain or waiting, with every write of its phase landed and no event recorded, exchanges the
faces of each written register and of no other, with the mp sets its context holds; the context goes on, and nothing else
changes. R41, R49, R181, R194: a flip does nothing before its bundle's last cycle; a waiting one does nothing while a
write of its phase, the answer of a CATOM the phase issued, or an LDSC push of an engine its MDRAIN ends is outstanding. -/
def Obligations.FlipExchanges : Prop := Sys2Proof.Machine.flipExchangesHold ∧ Sys2Proof.Machine.flipWaitsHold

/-- R14, R40, R128: NTREQ takes the register NTI names, advances NTI, and sends the request, which lands at most 24 core
cycles later (the landing cycle is a free choice); a ring of four, so the fifth of a phase takes the first register. R14,
R40, R300, R301: a request that has arrived takes the next index of its die's dispenser, whose coordinates are its answer,
or bit 63 where none is left; at its landing the hidden face of the register it names takes the answer. -/
def Obligations.NtreqServed : Prop := Sys2Proof.Machine.ntreqResultsHold ∧ Sys2Proof.Machine.dispenserServesHold

/-- R129, R133, R302, R305, R350: a blocked context whose condition holds becomes ready and may issue from the next core
cycle; one not issuing whose condition is false is left, and one still issuing gives up the core. A context that has kept its
place gives it up at its safe point where its launch is being pre-empted or another has waited the quantum. A timer whose deadline has come
disarms and its request is pending. A lease whose time has run out ends without a refund, and a request of OP7 becomes
OP6. Nothing else changes. R240 to R243, R320: a request of a point below FLOOR, or of OP7 without the context's lease,
stops its context with an operating-point error; another becomes the requested point and the next step begins, or, in a
communication step, waits for its end. The end of a step's window puts its end point in force and begins the next step. -/
def Obligations.CoreTimers : Prop := Sys2Proof.Machine.releaseAndExpiryHold ∧ Sys2Proof.Machine.operatingPointsHold

/-- R274, R283, R341, R342, R351, R352, R354, R362, R363, R370, R375: what VFIRQ, STOCLR, FLOCK, a counter's selection, the reads of
CNTCHG, SNAP, KICK and MBXSTAT do; a KICK waits behind what of its function has been received before and waits. Nothing else changes. R6, R287, R318, R330, R332, R339, R340, R351, R362, R369, R374,
R375: a write of a register stores its value with its reserved bits zero, and one at a reserved page nothing; the accepted
feature words do not change once locked; a page outside RANGES leaves MBXBASE, and SBCTL's low 6 bits are not kept (assumption
54), which takes a control block of the partition's own core under SAMPLE; the hypervisor assigns a queue pair through the
model's own register (assumption 74). -/
def Obligations.DeviceRegisters : Prop := Sys2Proof.Machine.kernelRegistersHold ∧ Sys2Proof.Machine.registerWritesHold

/-- R372, R373, R375, R377: power-good begins boot at stage 1; a stage that completes is followed by the next with its
measurement recorded, and one that fails sets the error, after stage 2 the compute cores being unavailable and boot going on, as
after stage 3 (assumption 57); an attestation answers evidence, which begins with the nonce (assumption 58); PKGCAP is clamped to
the form's limit, and the assigned caps are cut to it (assumption 72); a GN-TY3-M's trip holds from each excess for at least 10 ms,
and on a GN-TY3-P there is none (assumption 59). R344, R345: a DRAM command of the partition adds its
charge to OCCUSE, 192 for an activation, 10 for a burst and 64 for a turnaround in sixteenths of a nanosecond, and past
OCCBUD the partition is at background priority; a window's end moves OCCUSE to OCCLAST and clears it. No core and no
memory changes. -/
def Obligations.PackageSteps : Prop := Sys2Proof.Machine.packageStepsHold ∧ Sys2Proof.Machine.occupancyChargesHold

/-- R147 to R151, R104, R105, R111: VDOT4.S, VMIX, CVT and CVT.AMAX. VDOT4.S adds four exact products to each accumulator and clamps
once; VMIX gives what its four rounds leave of each lane; CVT converts each selected element, rounded, saturated and flagged by its
format's row (integers to E8M0 and E8M0 to integers are assumption 61), and takes y's bits elsewhere; CVT.AMAX also leaves the running
maximum of its source elements as an am write that lands 4 schedule cycles after issue (of a Scale format, assumption 83), and exists
in user contexts only. R98, R139, R144, R148: a vector trigger whose inputs have not the tags its
operation accepts raises a tag mismatch on its slot and delivers nothing, in both its forms: the integer and floating operations and
compares, the shifts, the lanes (VPERM of 4-bit elements and VTAG to a reserved tag), the packs and unpacks, the reductions, VDOT4.S,
VMIX, and CVT and CVT.AMAX of a control word that is none. -/
def Obligations.VectorSpecialResults : Prop := Sys2Proof.Machine.vectorSpecialResultsHold ∧ Sys2Proof.Machine.vectorTagMismatchHold
end

