-- ==== Sys2Proof/Laws/Decoding.lean ====
section
/-!
SUPPORT. Laws of the encodings: a slot word's fields come back from its word (R69); and performing a trigger or a
micro-operation is what exec does with its instruction.
-/
namespace Sys2Proof

theorem toWord_getLsbD (w : Slot) (d : BitVec 9) (i : Nat) : (w.toWord d).getLsbD i =
    if i < 1 then false else if i < 10 then d.getLsbD (i - 1) else if i < 19 then w.src.getLsbD (i - 10)
    else if i < 23 then w.gd.g.getLsbD (i - 19) else (BitVec.ofBool w.gd.n).getLsbD (i - 23) := by
  simp only [Slot.toWord, BitVec.getLsbD_append]
  by_cases h1 : i < 1
  · have : i = 0 := by omega
    subst this; simp
  by_cases h2 : i < 10
  · simp [h1, h2, show i < 19 by omega, show i < 23 by omega]
  by_cases h3 : i < 19
  · simp [h1, h2, h3, show i < 23 by omega]
  by_cases h4 : i < 23
  · simp [h1, h2, h3, h4]
  · simp [h1, h2, h3, h4]

@[simp] theorem slotDst_toWord (w : Slot) (d : BitVec 9) : slotDst (w.toWord d) = d := by
  apply BitVec.eq_of_getLsbD_eq
  intro i h
  have e : 1 + i - 1 = i := by omega
  simp only [slotDst, BitVec.getLsbD_extractLsb', toWord_getLsbD, h, decide_true, Bool.true_and, e,
    show ¬ 1 + i < 1 by omega, show 1 + i < 10 by omega, if_true, if_false]

@[simp] theorem toWord_bit0 (w : Slot) (d : BitVec 9) : (w.toWord d).getLsbD 0 = false := by
  simp only [toWord_getLsbD, show (0 : Nat) < 1 by omega, if_true]

@[simp] theorem ofWord_toWord (w : Slot) (d : BitVec 9) : Slot.ofWord (w.toWord d) = w := by
  obtain ⟨⟨n, g⟩, src⟩ := w
  have h1 : (Slot.toWord ⟨⟨n, g⟩, src⟩ d).getLsbD 23 = n := by
    simp only [toWord_getLsbD]
    cases n <;> rfl
  have h2 : (Slot.toWord ⟨⟨n, g⟩, src⟩ d).extractLsb' 19 4 = g := by
    apply BitVec.eq_of_getLsbD_eq
    intro i h
    have e : 19 + i - 19 = i := by omega
    simp only [BitVec.getLsbD_extractLsb', toWord_getLsbD, h, decide_true, Bool.true_and, e,
      show ¬ 19 + i < 1 by omega, show ¬ 19 + i < 10 by omega, show ¬ 19 + i < 19 by omega, show 19 + i < 23 by omega,
      if_true, if_false]
  have h3 : (Slot.toWord ⟨⟨n, g⟩, src⟩ d).extractLsb' 10 9 = src := by
    apply BitVec.eq_of_getLsbD_eq
    intro i h
    have e : 10 + i - 10 = i := by omega
    simp only [BitVec.getLsbD_extractLsb', toWord_getLsbD, h, decide_true, Bool.true_and, e,
      show ¬ 10 + i < 1 by omega, show ¬ 10 + i < 10 by omega, show 10 + i < 19 by omega, if_true, if_false]
  unfold Slot.ofWord
  rw [h1, h2, h3]

namespace Machine

/-- A trigger performed is its instruction executed. -/
theorem runOp_eq_exec (op : SlotOp) (d : BitVec 9) (w : Slot) (s : State) : runOp op d w s = exec (op.instr d w) s := by
  cases op <;> rfl

/-- A micro-operation performed is its instruction executed. -/
theorem runMicro_eq_exec (m : MicroOp) (s : State) : runMicro m s = exec m.instr s := by
  cases m <;> rfl

end Machine
end Sys2Proof
end

