-- ==== Sys2Proof/Laws/Maps.lean ====
section
/-!
SUPPORT. Laws of the finite maps and of the byte memories: a read after a write, and the canonical form kept by every
memory operation.
-/
namespace Sys2Proof.Machine

/-! ## Maps -/

@[simp] theorem SMap.get_put_same {α : Type} (d : α) (m : SMap α) (k : Nat) (v : α) : (m.put k v).get d k = v := by
  induction m with
  | nil => simp [SMap.put, SMap.get]
  | cons p r ih =>
    obtain ⟨k', v'⟩ := p
    unfold SMap.put
    split
    · simp [SMap.get]
    · split
      · simp [SMap.get]
      · next h _ => simp [SMap.get, h, ih]

theorem SMap.get_put_other {α : Type} (d : α) (m : SMap α) {k j : Nat} (v : α) (h : j ≠ k) :
    (m.put k v).get d j = m.get d j := by
  induction m with
  | nil => simp [SMap.put, SMap.get, Ne.symm h]
  | cons p r ih =>
    obtain ⟨k', v'⟩ := p
    unfold SMap.put
    split
    · next e => subst e; simp [SMap.get, Ne.symm h]
    · split
      · simp [SMap.get, Ne.symm h]
      · simp [SMap.get, ih]

theorem SMap.get_put {α : Type} (d : α) (m : SMap α) (k j : Nat) (v : α) :
    (m.put k v).get d j = if j = k then v else m.get d j := by
  by_cases h : j = k
  · simp [h]
  · simp [h, SMap.get_put_other]

/-- A key put twice holds the later value. -/
@[simp] theorem SMap.put_put {α : Type} (m : SMap α) (k : Nat) (v w : α) : (m.put k v).put k w = m.put k w := by
  induction m with
  | nil => simp [SMap.put]
  | cons p r ih =>
    obtain ⟨k', v'⟩ := p
    by_cases h : k' = k
    · simp [SMap.put, h]
    · by_cases q : k < k'
      · simp [SMap.put, h, q]
      · simp [SMap.put, h, q, ih]

@[simp] theorem SMap.get_nil {α : Type} (d : α) (k : Nat) : SMap.get d [] k = d := rfl

/-- A value mapped by a function that keeps the default of the key. -/
theorem SMap.get_mapVal {α β : Type} (d : α) (e : β) (f : Nat → α → β) (m : SMap α) (k : Nat) (h : f k d = e) :
    (m.mapVal f).get e k = f k (m.get d k) := by
  induction m with
  | nil => simp [SMap.mapVal, SMap.get, h]
  | cons p r ih =>
    simp only [SMap.mapVal, List.map_cons, SMap.get] at *
    split
    · next e => rw [e]
    · exact ih

theorem SMap.find_put_same {α : Type} (m : SMap α) (k : Nat) (v : α) : (m.put k v).find k = some v := by
  induction m with
  | nil => simp [SMap.put, SMap.find]
  | cons p r ih =>
    obtain ⟨k', v'⟩ := p
    unfold SMap.put
    split
    · simp [SMap.find]
    · split
      · simp [SMap.find]
      · next h _ => simp [SMap.find, h, ih]

/-! ## Memories: reads -/

theorem Memory.read_insert (m : Memory) (a b : Nat) (v : Byte) :
    (m.insert a v).read b = if b = a then v else m.read b := by
  induction m with
  | nil =>
    by_cases e : b = a
    · simp [Memory.insert, Memory.read, e]
    · simp [Memory.insert, Memory.read, e, Ne.symm e]
  | cons p r ih =>
    obtain ⟨a', v'⟩ := p
    unfold Memory.insert
    split
    · simp only [Memory.read]
      by_cases e : b = a
      · simp [e]
      · have : ¬ a = b := fun q => e q.symm
        simp [this, e]
    · split
      · next e =>
        subst e
        simp only [Memory.read]
        by_cases q : b = a
        · simp [q]
        · simp [q, Ne.symm q]
      · simp only [Memory.read, ih]
        by_cases q : a' = b
        · have : ¬ b = a := by omega
          simp [q, this]
        · simp [q]

theorem Memory.read_filter_same (m : Memory) (a : Nat) : Memory.read (m.filter fun c => c.1 ≠ a) a = Memory.blank := by
  induction m with
  | nil => rfl
  | cons p r ih =>
    by_cases h : p.1 = a
    · rw [List.filter_cons_of_neg (by simp [h])]; exact ih
    · rw [List.filter_cons_of_pos (by simp [h])]; simp only [Memory.read, h, if_false]; exact ih

theorem Memory.read_filter_other (m : Memory) {a b : Nat} (h : b ≠ a) :
    Memory.read (m.filter fun c => c.1 ≠ a) b = m.read b := by
  induction m with
  | nil => rfl
  | cons p r ih =>
    by_cases q : p.1 = a
    · rw [List.filter_cons_of_neg (by simp [q])]
      have : ¬ p.1 = b := by omega
      simp only [Memory.read, this, if_false]; exact ih
    · rw [List.filter_cons_of_pos (by simp [q])]; simp only [Memory.read]; rw [ih]

/-! ## Memories: the canonical form -/

/-- The canonical form as a proposition: addresses strictly rising, no blank byte. -/
theorem Memory.wf_iff (m : Memory) :
    m.wf = true ↔ m.Pairwise (fun x y => x.1 < y.1) ∧ ∀ c ∈ m, c.2 ≠ Memory.blank := by
  induction m with
  | nil => simp [Memory.wf]
  | cons p r ih =>
    obtain ⟨a, b⟩ := p
    cases r with
    | nil => simp [Memory.wf]
    | cons q t =>
      obtain ⟨a', b'⟩ := q
      rw [Memory.wf, Bool.and_eq_true, Bool.and_eq_true, ih]
      simp only [List.pairwise_cons, bne_iff_ne, decide_eq_true_eq, List.mem_cons]
      constructor
      · rintro ⟨⟨h1, h2⟩, ⟨h3, h4⟩, h5⟩
        refine ⟨⟨?_, h3, h4⟩, ?_⟩
        · rintro x (rfl | hx)
          · exact h2
          · exact Nat.lt_trans h2 (h3 x hx)
        · rintro c (rfl | hc)
          · exact h1
          · exact h5 c hc
      · rintro ⟨⟨h1, h3, h4⟩, h5⟩
        exact ⟨⟨h5 (a, b) (.inl rfl), h1 (a', b') (.inl rfl)⟩, ⟨h3, h4⟩, fun c hc => h5 c (.inr hc)⟩

theorem Memory.mem_insert {m : Memory} {a : Nat} {v : Byte} {c : Host.Cell} (h : c ∈ m.insert a v) : c = (a, v) ∨ c ∈ m := by
  induction m with
  | nil => simpa [Memory.insert] using h
  | cons p r ih =>
    obtain ⟨a', v'⟩ := p
    unfold Memory.insert at h
    split at h
    · simpa using h
    · split at h
      · rcases List.mem_cons.1 h with h | h
        · exact .inl h
        · exact .inr (List.mem_cons_of_mem _ h)
      · rcases List.mem_cons.1 h with h | h
        · exact .inr (h ▸ List.mem_cons_self ..)
        · rcases ih h with h | h
          · exact .inl h
          · exact .inr (List.mem_cons_of_mem _ h)

theorem Memory.wf_insert {m : Memory} {a : Nat} {v : Byte} (h : m.wf = true) (hv : v ≠ Memory.blank) :
    (m.insert a v).wf = true := by
  rw [Memory.wf_iff] at h ⊢
  refine ⟨?_, fun c hc => ?_⟩
  · induction m with
    | nil => simp [Memory.insert]
    | cons p r ih =>
      obtain ⟨a', v'⟩ := p
      have hp := List.pairwise_cons.1 h.1
      have hr := ih ⟨hp.2, fun c hc => h.2 c (List.mem_cons_of_mem _ hc)⟩
      unfold Memory.insert
      split
      · next q =>
        refine List.pairwise_cons.2 ⟨fun x hx => ?_, h.1⟩
        rcases List.mem_cons.1 hx with rfl | hx
        · exact q
        · exact Nat.lt_trans q (hp.1 x hx)
      · split
        · next q => subst q; exact List.pairwise_cons.2 ⟨hp.1, hp.2⟩
        · next q1 q2 =>
          refine List.pairwise_cons.2 ⟨fun x hx => ?_, hr⟩
          rcases Memory.mem_insert hx with rfl | hx
          · show a' < a; omega
          · exact hp.1 x hx
  · rcases Memory.mem_insert hc with rfl | hc
    · exact hv
    · exact h.2 c hc

theorem Memory.wf_filter {m : Memory} (f : Host.Cell → Bool) (h : m.wf = true) : Memory.wf (m.filter f) = true := by
  rw [Memory.wf_iff] at h ⊢
  exact ⟨h.1.filter f, fun c hc => h.2 c (List.mem_filter.1 hc).1⟩

/-- A byte written keeps the canonical form. -/
theorem Memory.wf_write {m : Memory} {a : Nat} {v : Byte} (h : m.wf = true) : (m.write a v).wf = true := by
  unfold Memory.write
  split
  · exact Memory.wf_filter _ h
  · next q => exact Memory.wf_insert h q

/-- Bytes written keep the canonical form. -/
theorem Memory.wf_writeBytes {m : Memory} {bs : List Byte} {a : Nat} (h : m.wf = true) : (m.writeBytes a bs).wf = true := by
  induction bs generalizing m a with
  | nil => exact h
  | cons b r ih => exact ih (Memory.wf_write h)

/-- A read after a byte written. -/
theorem Memory.read_write (m : Memory) (a b : Nat) (v : Byte) :
    (m.write a v).read b = if b = a then v else m.read b := by
  unfold Memory.write
  split
  · next q =>
    by_cases e : b = a
    · subst e; rw [Memory.read_filter_same]; simp [q]
    · rw [Memory.read_filter_other _ e]; simp [e]
  · exact Memory.read_insert _ _ _ _

/-- A read outside bytes written. -/
theorem Memory.read_writeBytes_other {m : Memory} {bs : List Byte} {a b : Nat}
    (hb : b < a ∨ a + bs.length ≤ b) : (m.writeBytes a bs).read b = m.read b := by
  induction bs generalizing m a with
  | nil => rfl
  | cons x r ih =>
    simp only [List.length_cons] at hb
    rw [Memory.writeBytes, ih (by omega), Memory.read_write]
    have : b ≠ a := by omega
    simp [this]

/-- A read inside bytes written. -/
theorem Memory.read_writeBytes_same {m : Memory} {bs : List Byte} {a i : Nat} (hi : i < bs.length) :
    (m.writeBytes a bs).read (a + i) = bs[i] := by
  induction bs generalizing m a i with
  | nil => simp at hi
  | cons x r ih =>
    rw [Memory.writeBytes]
    cases i with
    | zero => rw [Memory.read_writeBytes_other (by omega), Memory.read_write]; simp
    | succ j =>
      have := ih (m := m.write a x) (a := a + 1) (Nat.lt_of_succ_lt_succ hi)
      rw [show a + (j + 1) = a + 1 + j by omega, this]; rfl

theorem Memory.wf_writeLe {m : Memory} {a n v : Nat} (h : m.wf = true) : (m.writeLe a n v).wf = true :=
  Memory.wf_writeBytes h

end Sys2Proof.Machine
end

