-- ==== Sys2Proof/Laws/State.lean ====
section
/-!
SUPPORT. Laws of the state's updates: one lemma for each field an update leaves, and what reading gives after it.
-/
namespace Sys2Proof.Machine

/-! ## What each update leaves -/

@[simp] theorem State.setCoreAt_pcc (s : State) (n : Nat) (k : Core) : (s.setCoreAt n k).pcc = s.pcc := rfl
@[simp] theorem State.setCoreAt_mem (s : State) (n : Nat) (k : Core) : (s.setCoreAt n k).mem = s.mem := rfl
@[simp] theorem State.setCoreAt_launches (s : State) (n : Nat) (k : Core) : (s.setCoreAt n k).launches = s.launches := rfl
@[simp] theorem State.setCoreAt_parts (s : State) (n : Nat) (k : Core) : (s.setCoreAt n k).parts = s.parts := rfl
@[simp] theorem State.setCoreAt_tx (s : State) (n : Nat) (k : Core) : (s.setCoreAt n k).tx = s.tx := rfl
@[simp] theorem State.setCoreAt_prq (s : State) (n : Nat) (k : Core) : (s.setCoreAt n k).prq = s.prq := rfl
@[simp] theorem State.setCoreAt_waits (s : State) (n : Nat) (k : Core) : (s.setCoreAt n k).waits = s.waits := rfl
@[simp] theorem State.setCoreAt_pkg (s : State) (n : Nat) (k : Core) : (s.setCoreAt n k).pkg = s.pkg := rfl
@[simp] theorem State.setCoreAt_jname (s : State) (n : Nat) (k : Core) : (s.setCoreAt n k).jname = s.jname := rfl
@[simp] theorem State.setCoreAt_dumps (s : State) (n : Nat) (k : Core) : (s.setCoreAt n k).dumps = s.dumps := rfl
@[simp] theorem State.setCoreAt_irqs (s : State) (n : Nat) (k : Core) : (s.setCoreAt n k).irqs = s.irqs := rfl
@[simp] theorem State.setCoreAt_todo (s : State) (n : Nat) (k : Core) : (s.setCoreAt n k).todo = s.todo := rfl
@[simp] theorem State.setCoreAt_inbox (s : State) (n : Nat) (k : Core) : (s.setCoreAt n k).inbox = s.inbox := rfl
@[simp] theorem State.setCoreAt_frame (s : State) (n : Nat) (k : Core) : (s.setCoreAt n k).frame = s.frame := rfl
@[simp] theorem State.setCoreAt_ctr (s : State) (n : Nat) (k : Core) : (s.setCoreAt n k).ctr = s.ctr := rfl
@[simp] theorem State.setCore_pcc (s : State) (k : Core) : (s.setCore k).pcc = s.pcc := rfl
@[simp] theorem State.setCore_mem (s : State) (k : Core) : (s.setCore k).mem = s.mem := rfl
@[simp] theorem State.setCore_launches (s : State) (k : Core) : (s.setCore k).launches = s.launches := rfl
@[simp] theorem State.setCore_parts (s : State) (k : Core) : (s.setCore k).parts = s.parts := rfl
@[simp] theorem State.setCore_tx (s : State) (k : Core) : (s.setCore k).tx = s.tx := rfl
@[simp] theorem State.setCore_prq (s : State) (k : Core) : (s.setCore k).prq = s.prq := rfl
@[simp] theorem State.setCore_waits (s : State) (k : Core) : (s.setCore k).waits = s.waits := rfl
@[simp] theorem State.setCore_pkg (s : State) (k : Core) : (s.setCore k).pkg = s.pkg := rfl
@[simp] theorem State.setCore_jname (s : State) (k : Core) : (s.setCore k).jname = s.jname := rfl
@[simp] theorem State.setCore_dumps (s : State) (k : Core) : (s.setCore k).dumps = s.dumps := rfl
@[simp] theorem State.setCore_irqs (s : State) (k : Core) : (s.setCore k).irqs = s.irqs := rfl
@[simp] theorem State.setCore_todo (s : State) (k : Core) : (s.setCore k).todo = s.todo := rfl
@[simp] theorem State.setCore_inbox (s : State) (k : Core) : (s.setCore k).inbox = s.inbox := rfl
@[simp] theorem State.setCore_frame (s : State) (k : Core) : (s.setCore k).frame = s.frame := rfl
@[simp] theorem State.setCore_ctr (s : State) (k : Core) : (s.setCore k).ctr = s.ctr := rfl
@[simp] theorem State.setCtx_pcc (s : State) (x : Ctx) : (s.setCtx x).pcc = s.pcc := rfl
@[simp] theorem State.setCtx_mem (s : State) (x : Ctx) : (s.setCtx x).mem = s.mem := rfl
@[simp] theorem State.setCtx_launches (s : State) (x : Ctx) : (s.setCtx x).launches = s.launches := rfl
@[simp] theorem State.setCtx_parts (s : State) (x : Ctx) : (s.setCtx x).parts = s.parts := rfl
@[simp] theorem State.setCtx_tx (s : State) (x : Ctx) : (s.setCtx x).tx = s.tx := rfl
@[simp] theorem State.setCtx_prq (s : State) (x : Ctx) : (s.setCtx x).prq = s.prq := rfl
@[simp] theorem State.setCtx_waits (s : State) (x : Ctx) : (s.setCtx x).waits = s.waits := rfl
@[simp] theorem State.setCtx_pkg (s : State) (x : Ctx) : (s.setCtx x).pkg = s.pkg := rfl
@[simp] theorem State.setCtx_jname (s : State) (x : Ctx) : (s.setCtx x).jname = s.jname := rfl
@[simp] theorem State.setCtx_dumps (s : State) (x : Ctx) : (s.setCtx x).dumps = s.dumps := rfl
@[simp] theorem State.setCtx_irqs (s : State) (x : Ctx) : (s.setCtx x).irqs = s.irqs := rfl
@[simp] theorem State.setCtx_todo (s : State) (x : Ctx) : (s.setCtx x).todo = s.todo := rfl
@[simp] theorem State.setCtx_inbox (s : State) (x : Ctx) : (s.setCtx x).inbox = s.inbox := rfl
@[simp] theorem State.setCtx_frame (s : State) (x : Ctx) : (s.setCtx x).frame = s.frame := rfl
@[simp] theorem State.setCtx_ctr (s : State) (x : Ctx) : (s.setCtx x).ctr = s.ctr := rfl
@[simp] theorem State.setArch_pcc (s : State) (a : CtxArch) : (s.setArch a).pcc = s.pcc := rfl
@[simp] theorem State.setArch_mem (s : State) (a : CtxArch) : (s.setArch a).mem = s.mem := rfl
@[simp] theorem State.setArch_launches (s : State) (a : CtxArch) : (s.setArch a).launches = s.launches := rfl
@[simp] theorem State.setArch_parts (s : State) (a : CtxArch) : (s.setArch a).parts = s.parts := rfl
@[simp] theorem State.setArch_tx (s : State) (a : CtxArch) : (s.setArch a).tx = s.tx := rfl
@[simp] theorem State.setArch_prq (s : State) (a : CtxArch) : (s.setArch a).prq = s.prq := rfl
@[simp] theorem State.setArch_waits (s : State) (a : CtxArch) : (s.setArch a).waits = s.waits := rfl
@[simp] theorem State.setArch_pkg (s : State) (a : CtxArch) : (s.setArch a).pkg = s.pkg := rfl
@[simp] theorem State.setArch_jname (s : State) (a : CtxArch) : (s.setArch a).jname = s.jname := rfl
@[simp] theorem State.setArch_dumps (s : State) (a : CtxArch) : (s.setArch a).dumps = s.dumps := rfl
@[simp] theorem State.setArch_irqs (s : State) (a : CtxArch) : (s.setArch a).irqs = s.irqs := rfl
@[simp] theorem State.setArch_todo (s : State) (a : CtxArch) : (s.setArch a).todo = s.todo := rfl
@[simp] theorem State.setArch_inbox (s : State) (a : CtxArch) : (s.setArch a).inbox = s.inbox := rfl
@[simp] theorem State.setArch_frame (s : State) (a : CtxArch) : (s.setArch a).frame = s.frame := rfl
@[simp] theorem State.setArch_ctr (s : State) (a : CtxArch) : (s.setArch a).ctr = s.ctr := rfl
@[simp] theorem State.modRegs_pcc (s : State) (f : RegFile → RegFile) : (s.modRegs f).pcc = s.pcc := rfl
@[simp] theorem State.modRegs_mem (s : State) (f : RegFile → RegFile) : (s.modRegs f).mem = s.mem := rfl
@[simp] theorem State.modRegs_launches (s : State) (f : RegFile → RegFile) : (s.modRegs f).launches = s.launches := rfl
@[simp] theorem State.modRegs_parts (s : State) (f : RegFile → RegFile) : (s.modRegs f).parts = s.parts := rfl
@[simp] theorem State.modRegs_tx (s : State) (f : RegFile → RegFile) : (s.modRegs f).tx = s.tx := rfl
@[simp] theorem State.modRegs_prq (s : State) (f : RegFile → RegFile) : (s.modRegs f).prq = s.prq := rfl
@[simp] theorem State.modRegs_waits (s : State) (f : RegFile → RegFile) : (s.modRegs f).waits = s.waits := rfl
@[simp] theorem State.modRegs_pkg (s : State) (f : RegFile → RegFile) : (s.modRegs f).pkg = s.pkg := rfl
@[simp] theorem State.modRegs_jname (s : State) (f : RegFile → RegFile) : (s.modRegs f).jname = s.jname := rfl
@[simp] theorem State.modRegs_dumps (s : State) (f : RegFile → RegFile) : (s.modRegs f).dumps = s.dumps := rfl
@[simp] theorem State.modRegs_irqs (s : State) (f : RegFile → RegFile) : (s.modRegs f).irqs = s.irqs := rfl
@[simp] theorem State.modRegs_todo (s : State) (f : RegFile → RegFile) : (s.modRegs f).todo = s.todo := rfl
@[simp] theorem State.modRegs_inbox (s : State) (f : RegFile → RegFile) : (s.modRegs f).inbox = s.inbox := rfl
@[simp] theorem State.modRegs_frame (s : State) (f : RegFile → RegFile) : (s.modRegs f).frame = s.frame := rfl
@[simp] theorem State.modRegs_ctr (s : State) (f : RegFile → RegFile) : (s.modRegs f).ctr = s.ctr := rfl
@[simp] theorem State.setFrame_pcc (s : State) (f : Frame) : (s.setFrame f).pcc = s.pcc := rfl
@[simp] theorem State.setFrame_mem (s : State) (f : Frame) : (s.setFrame f).mem = s.mem := rfl
@[simp] theorem State.setFrame_cores (s : State) (f : Frame) : (s.setFrame f).cores = s.cores := rfl
@[simp] theorem State.setFrame_launches (s : State) (f : Frame) : (s.setFrame f).launches = s.launches := rfl
@[simp] theorem State.setFrame_parts (s : State) (f : Frame) : (s.setFrame f).parts = s.parts := rfl
@[simp] theorem State.setFrame_tx (s : State) (f : Frame) : (s.setFrame f).tx = s.tx := rfl
@[simp] theorem State.setFrame_prq (s : State) (f : Frame) : (s.setFrame f).prq = s.prq := rfl
@[simp] theorem State.setFrame_waits (s : State) (f : Frame) : (s.setFrame f).waits = s.waits := rfl
@[simp] theorem State.setFrame_pkg (s : State) (f : Frame) : (s.setFrame f).pkg = s.pkg := rfl
@[simp] theorem State.setFrame_jname (s : State) (f : Frame) : (s.setFrame f).jname = s.jname := rfl
@[simp] theorem State.setFrame_dumps (s : State) (f : Frame) : (s.setFrame f).dumps = s.dumps := rfl
@[simp] theorem State.setFrame_irqs (s : State) (f : Frame) : (s.setFrame f).irqs = s.irqs := rfl
@[simp] theorem State.setFrame_todo (s : State) (f : Frame) : (s.setFrame f).todo = s.todo := rfl
@[simp] theorem State.setFrame_inbox (s : State) (f : Frame) : (s.setFrame f).inbox = s.inbox := rfl
@[simp] theorem State.setFrame_ctr (s : State) (f : Frame) : (s.setFrame f).ctr = s.ctr := rfl
@[simp] theorem State.setPart_pcc (s : State) (p : Nat) (x : Partition) : (s.setPart p x).pcc = s.pcc := rfl
@[simp] theorem State.setPart_mem (s : State) (p : Nat) (x : Partition) : (s.setPart p x).mem = s.mem := rfl
@[simp] theorem State.setPart_cores (s : State) (p : Nat) (x : Partition) : (s.setPart p x).cores = s.cores := rfl
@[simp] theorem State.setPart_launches (s : State) (p : Nat) (x : Partition) : (s.setPart p x).launches = s.launches := rfl
@[simp] theorem State.setPart_tx (s : State) (p : Nat) (x : Partition) : (s.setPart p x).tx = s.tx := rfl
@[simp] theorem State.setPart_prq (s : State) (p : Nat) (x : Partition) : (s.setPart p x).prq = s.prq := rfl
@[simp] theorem State.setPart_waits (s : State) (p : Nat) (x : Partition) : (s.setPart p x).waits = s.waits := rfl
@[simp] theorem State.setPart_pkg (s : State) (p : Nat) (x : Partition) : (s.setPart p x).pkg = s.pkg := rfl
@[simp] theorem State.setPart_jname (s : State) (p : Nat) (x : Partition) : (s.setPart p x).jname = s.jname := rfl
@[simp] theorem State.setPart_dumps (s : State) (p : Nat) (x : Partition) : (s.setPart p x).dumps = s.dumps := rfl
@[simp] theorem State.setPart_irqs (s : State) (p : Nat) (x : Partition) : (s.setPart p x).irqs = s.irqs := rfl
@[simp] theorem State.setPart_todo (s : State) (p : Nat) (x : Partition) : (s.setPart p x).todo = s.todo := rfl
@[simp] theorem State.setPart_inbox (s : State) (p : Nat) (x : Partition) : (s.setPart p x).inbox = s.inbox := rfl
@[simp] theorem State.setPart_frame (s : State) (p : Nat) (x : Partition) : (s.setPart p x).frame = s.frame := rfl
@[simp] theorem State.setPart_ctr (s : State) (p : Nat) (x : Partition) : (s.setPart p x).ctr = s.ctr := rfl
@[simp] theorem State.setTx_pcc (s : State) (p d : Nat) (x : TxBlock) : (s.setTx p d x).pcc = s.pcc := rfl
@[simp] theorem State.setTx_mem (s : State) (p d : Nat) (x : TxBlock) : (s.setTx p d x).mem = s.mem := rfl
@[simp] theorem State.setTx_cores (s : State) (p d : Nat) (x : TxBlock) : (s.setTx p d x).cores = s.cores := rfl
@[simp] theorem State.setTx_launches (s : State) (p d : Nat) (x : TxBlock) : (s.setTx p d x).launches = s.launches := rfl
@[simp] theorem State.setTx_parts (s : State) (p d : Nat) (x : TxBlock) : (s.setTx p d x).parts = s.parts := rfl
@[simp] theorem State.setTx_prq (s : State) (p d : Nat) (x : TxBlock) : (s.setTx p d x).prq = s.prq := rfl
@[simp] theorem State.setTx_waits (s : State) (p d : Nat) (x : TxBlock) : (s.setTx p d x).waits = s.waits := rfl
@[simp] theorem State.setTx_pkg (s : State) (p d : Nat) (x : TxBlock) : (s.setTx p d x).pkg = s.pkg := rfl
@[simp] theorem State.setTx_jname (s : State) (p d : Nat) (x : TxBlock) : (s.setTx p d x).jname = s.jname := rfl
@[simp] theorem State.setTx_dumps (s : State) (p d : Nat) (x : TxBlock) : (s.setTx p d x).dumps = s.dumps := rfl
@[simp] theorem State.setTx_irqs (s : State) (p d : Nat) (x : TxBlock) : (s.setTx p d x).irqs = s.irqs := rfl
@[simp] theorem State.setTx_todo (s : State) (p d : Nat) (x : TxBlock) : (s.setTx p d x).todo = s.todo := rfl
@[simp] theorem State.setTx_inbox (s : State) (p d : Nat) (x : TxBlock) : (s.setTx p d x).inbox = s.inbox := rfl
@[simp] theorem State.setTx_frame (s : State) (p d : Nat) (x : TxBlock) : (s.setTx p d x).frame = s.frame := rfl
@[simp] theorem State.setTx_ctr (s : State) (p d : Nat) (x : TxBlock) : (s.setTx p d x).ctr = s.ctr := rfl
@[simp] theorem State.raise_pcc (s : State) (e : Nat) (d : W64) : (s.raise e d).pcc = s.pcc := rfl
@[simp] theorem State.raise_mem (s : State) (e : Nat) (d : W64) : (s.raise e d).mem = s.mem := rfl
@[simp] theorem State.raise_cores (s : State) (e : Nat) (d : W64) : (s.raise e d).cores = s.cores := rfl
@[simp] theorem State.raise_launches (s : State) (e : Nat) (d : W64) : (s.raise e d).launches = s.launches := rfl
@[simp] theorem State.raise_parts (s : State) (e : Nat) (d : W64) : (s.raise e d).parts = s.parts := rfl
@[simp] theorem State.raise_tx (s : State) (e : Nat) (d : W64) : (s.raise e d).tx = s.tx := rfl
@[simp] theorem State.raise_prq (s : State) (e : Nat) (d : W64) : (s.raise e d).prq = s.prq := rfl
@[simp] theorem State.raise_waits (s : State) (e : Nat) (d : W64) : (s.raise e d).waits = s.waits := rfl
@[simp] theorem State.raise_pkg (s : State) (e : Nat) (d : W64) : (s.raise e d).pkg = s.pkg := rfl
@[simp] theorem State.raise_jname (s : State) (e : Nat) (d : W64) : (s.raise e d).jname = s.jname := rfl
@[simp] theorem State.raise_dumps (s : State) (e : Nat) (d : W64) : (s.raise e d).dumps = s.dumps := rfl
@[simp] theorem State.raise_irqs (s : State) (e : Nat) (d : W64) : (s.raise e d).irqs = s.irqs := rfl
@[simp] theorem State.raise_todo (s : State) (e : Nat) (d : W64) : (s.raise e d).todo = s.todo := rfl
@[simp] theorem State.raise_inbox (s : State) (e : Nat) (d : W64) : (s.raise e d).inbox = s.inbox := rfl
@[simp] theorem State.raise_ctr (s : State) (e : Nat) (d : W64) : (s.raise e d).ctr = s.ctr := rfl
@[simp] theorem State.raiseSlot_pcc (s : State) (e : Nat) : (s.raiseSlot e).pcc = s.pcc := rfl
@[simp] theorem State.raiseSlot_mem (s : State) (e : Nat) : (s.raiseSlot e).mem = s.mem := rfl
@[simp] theorem State.raiseSlot_cores (s : State) (e : Nat) : (s.raiseSlot e).cores = s.cores := rfl
@[simp] theorem State.raiseSlot_launches (s : State) (e : Nat) : (s.raiseSlot e).launches = s.launches := rfl
@[simp] theorem State.raiseSlot_parts (s : State) (e : Nat) : (s.raiseSlot e).parts = s.parts := rfl
@[simp] theorem State.raiseSlot_tx (s : State) (e : Nat) : (s.raiseSlot e).tx = s.tx := rfl
@[simp] theorem State.raiseSlot_prq (s : State) (e : Nat) : (s.raiseSlot e).prq = s.prq := rfl
@[simp] theorem State.raiseSlot_waits (s : State) (e : Nat) : (s.raiseSlot e).waits = s.waits := rfl
@[simp] theorem State.raiseSlot_pkg (s : State) (e : Nat) : (s.raiseSlot e).pkg = s.pkg := rfl
@[simp] theorem State.raiseSlot_jname (s : State) (e : Nat) : (s.raiseSlot e).jname = s.jname := rfl
@[simp] theorem State.raiseSlot_dumps (s : State) (e : Nat) : (s.raiseSlot e).dumps = s.dumps := rfl
@[simp] theorem State.raiseSlot_irqs (s : State) (e : Nat) : (s.raiseSlot e).irqs = s.irqs := rfl
@[simp] theorem State.raiseSlot_todo (s : State) (e : Nat) : (s.raiseSlot e).todo = s.todo := rfl
@[simp] theorem State.raiseSlot_inbox (s : State) (e : Nat) : (s.raiseSlot e).inbox = s.inbox := rfl
@[simp] theorem State.raiseSlot_ctr (s : State) (e : Nat) : (s.raiseSlot e).ctr = s.ctr := rfl
@[simp] theorem State.trace_pcc (s : State) (t p : Nat) : (s.trace t p).pcc = s.pcc := rfl
@[simp] theorem State.trace_mem (s : State) (t p : Nat) : (s.trace t p).mem = s.mem := rfl
@[simp] theorem State.trace_launches (s : State) (t p : Nat) : (s.trace t p).launches = s.launches := rfl
@[simp] theorem State.trace_parts (s : State) (t p : Nat) : (s.trace t p).parts = s.parts := rfl
@[simp] theorem State.trace_tx (s : State) (t p : Nat) : (s.trace t p).tx = s.tx := rfl
@[simp] theorem State.trace_prq (s : State) (t p : Nat) : (s.trace t p).prq = s.prq := rfl
@[simp] theorem State.trace_waits (s : State) (t p : Nat) : (s.trace t p).waits = s.waits := rfl
@[simp] theorem State.trace_pkg (s : State) (t p : Nat) : (s.trace t p).pkg = s.pkg := rfl
@[simp] theorem State.trace_jname (s : State) (t p : Nat) : (s.trace t p).jname = s.jname := rfl
@[simp] theorem State.trace_dumps (s : State) (t p : Nat) : (s.trace t p).dumps = s.dumps := rfl
@[simp] theorem State.trace_irqs (s : State) (t p : Nat) : (s.trace t p).irqs = s.irqs := rfl
@[simp] theorem State.trace_todo (s : State) (t p : Nat) : (s.trace t p).todo = s.todo := rfl
@[simp] theorem State.trace_inbox (s : State) (t p : Nat) : (s.trace t p).inbox = s.inbox := rfl
@[simp] theorem State.trace_frame (s : State) (t p : Nat) : (s.trace t p).frame = s.frame := rfl
@[simp] theorem State.trace_ctr (s : State) (t p : Nat) : (s.trace t p).ctr = s.ctr := rfl
@[simp] theorem State.later_pcc (s : State) (n : Nat) (c : Cursor) (i : Instr) : (s.later n c i).pcc = s.pcc := rfl
@[simp] theorem State.later_mem (s : State) (n : Nat) (c : Cursor) (i : Instr) : (s.later n c i).mem = s.mem := rfl
@[simp] theorem State.later_cores (s : State) (n : Nat) (c : Cursor) (i : Instr) : (s.later n c i).cores = s.cores := rfl
@[simp] theorem State.later_launches (s : State) (n : Nat) (c : Cursor) (i : Instr) : (s.later n c i).launches = s.launches := rfl
@[simp] theorem State.later_parts (s : State) (n : Nat) (c : Cursor) (i : Instr) : (s.later n c i).parts = s.parts := rfl
@[simp] theorem State.later_tx (s : State) (n : Nat) (c : Cursor) (i : Instr) : (s.later n c i).tx = s.tx := rfl
@[simp] theorem State.later_prq (s : State) (n : Nat) (c : Cursor) (i : Instr) : (s.later n c i).prq = s.prq := rfl
@[simp] theorem State.later_waits (s : State) (n : Nat) (c : Cursor) (i : Instr) : (s.later n c i).waits = s.waits := rfl
@[simp] theorem State.later_pkg (s : State) (n : Nat) (c : Cursor) (i : Instr) : (s.later n c i).pkg = s.pkg := rfl
@[simp] theorem State.later_jname (s : State) (n : Nat) (c : Cursor) (i : Instr) : (s.later n c i).jname = s.jname := rfl
@[simp] theorem State.later_dumps (s : State) (n : Nat) (c : Cursor) (i : Instr) : (s.later n c i).dumps = s.dumps := rfl
@[simp] theorem State.later_irqs (s : State) (n : Nat) (c : Cursor) (i : Instr) : (s.later n c i).irqs = s.irqs := rfl
@[simp] theorem State.later_todo (s : State) (n : Nat) (c : Cursor) (i : Instr) : (s.later n c i).todo = s.todo := rfl
@[simp] theorem State.later_frame (s : State) (n : Nat) (c : Cursor) (i : Instr) : (s.later n c i).frame = s.frame := rfl
@[simp] theorem State.later_ctr (s : State) (n : Nat) (c : Cursor) (i : Instr) : (s.later n c i).ctr = s.ctr := rfl
@[simp] theorem State.raiseIrq_pcc (s : State) (q : Irq) : (s.raiseIrq q).pcc = s.pcc := rfl
@[simp] theorem State.raiseIrq_mem (s : State) (q : Irq) : (s.raiseIrq q).mem = s.mem := rfl
@[simp] theorem State.raiseIrq_cores (s : State) (q : Irq) : (s.raiseIrq q).cores = s.cores := rfl
@[simp] theorem State.raiseIrq_launches (s : State) (q : Irq) : (s.raiseIrq q).launches = s.launches := rfl
@[simp] theorem State.raiseIrq_parts (s : State) (q : Irq) : (s.raiseIrq q).parts = s.parts := rfl
@[simp] theorem State.raiseIrq_tx (s : State) (q : Irq) : (s.raiseIrq q).tx = s.tx := rfl
@[simp] theorem State.raiseIrq_prq (s : State) (q : Irq) : (s.raiseIrq q).prq = s.prq := rfl
@[simp] theorem State.raiseIrq_waits (s : State) (q : Irq) : (s.raiseIrq q).waits = s.waits := rfl
@[simp] theorem State.raiseIrq_pkg (s : State) (q : Irq) : (s.raiseIrq q).pkg = s.pkg := rfl
@[simp] theorem State.raiseIrq_jname (s : State) (q : Irq) : (s.raiseIrq q).jname = s.jname := rfl
@[simp] theorem State.raiseIrq_dumps (s : State) (q : Irq) : (s.raiseIrq q).dumps = s.dumps := rfl
@[simp] theorem State.raiseIrq_todo (s : State) (q : Irq) : (s.raiseIrq q).todo = s.todo := rfl
@[simp] theorem State.raiseIrq_inbox (s : State) (q : Irq) : (s.raiseIrq q).inbox = s.inbox := rfl
@[simp] theorem State.raiseIrq_frame (s : State) (q : Irq) : (s.raiseIrq q).frame = s.frame := rfl
@[simp] theorem State.raiseIrq_ctr (s : State) (q : Irq) : (s.raiseIrq q).ctr = s.ctr := rfl
@[simp] theorem State.pushResult_pcc (s : State) (p l : Nat) (v : TVal) (f : Flags) : (s.pushResult p l v f).pcc = s.pcc := rfl
@[simp] theorem State.pushResult_mem (s : State) (p l : Nat) (v : TVal) (f : Flags) : (s.pushResult p l v f).mem = s.mem := rfl
@[simp] theorem State.pushResult_launches (s : State) (p l : Nat) (v : TVal) (f : Flags) : (s.pushResult p l v f).launches = s.launches := rfl
@[simp] theorem State.pushResult_parts (s : State) (p l : Nat) (v : TVal) (f : Flags) : (s.pushResult p l v f).parts = s.parts := rfl
@[simp] theorem State.pushResult_tx (s : State) (p l : Nat) (v : TVal) (f : Flags) : (s.pushResult p l v f).tx = s.tx := rfl
@[simp] theorem State.pushResult_prq (s : State) (p l : Nat) (v : TVal) (f : Flags) : (s.pushResult p l v f).prq = s.prq := rfl
@[simp] theorem State.pushResult_waits (s : State) (p l : Nat) (v : TVal) (f : Flags) : (s.pushResult p l v f).waits = s.waits := rfl
@[simp] theorem State.pushResult_pkg (s : State) (p l : Nat) (v : TVal) (f : Flags) : (s.pushResult p l v f).pkg = s.pkg := rfl
@[simp] theorem State.pushResult_jname (s : State) (p l : Nat) (v : TVal) (f : Flags) : (s.pushResult p l v f).jname = s.jname := rfl
@[simp] theorem State.pushResult_dumps (s : State) (p l : Nat) (v : TVal) (f : Flags) : (s.pushResult p l v f).dumps = s.dumps := rfl
@[simp] theorem State.pushResult_irqs (s : State) (p l : Nat) (v : TVal) (f : Flags) : (s.pushResult p l v f).irqs = s.irqs := rfl
@[simp] theorem State.pushResult_todo (s : State) (p l : Nat) (v : TVal) (f : Flags) : (s.pushResult p l v f).todo = s.todo := rfl
@[simp] theorem State.pushResult_inbox (s : State) (p l : Nat) (v : TVal) (f : Flags) : (s.pushResult p l v f).inbox = s.inbox := rfl
@[simp] theorem State.pushResult_frame (s : State) (p l : Nat) (v : TVal) (f : Flags) : (s.pushResult p l v f).frame = s.frame := rfl
@[simp] theorem State.pushResult_ctr (s : State) (p l : Nat) (v : TVal) (f : Flags) : (s.pushResult p l v f).ctr = s.ctr := rfl
@[simp] theorem State.noRoll_pcc (s : State) : (s.noRoll).pcc = s.pcc := rfl
@[simp] theorem State.noRoll_mem (s : State) : (s.noRoll).mem = s.mem := rfl
@[simp] theorem State.noRoll_launches (s : State) : (s.noRoll).launches = s.launches := rfl
@[simp] theorem State.noRoll_parts (s : State) : (s.noRoll).parts = s.parts := rfl
@[simp] theorem State.noRoll_tx (s : State) : (s.noRoll).tx = s.tx := rfl
@[simp] theorem State.noRoll_prq (s : State) : (s.noRoll).prq = s.prq := rfl
@[simp] theorem State.noRoll_waits (s : State) : (s.noRoll).waits = s.waits := rfl
@[simp] theorem State.noRoll_pkg (s : State) : (s.noRoll).pkg = s.pkg := rfl
@[simp] theorem State.noRoll_jname (s : State) : (s.noRoll).jname = s.jname := rfl
@[simp] theorem State.noRoll_dumps (s : State) : (s.noRoll).dumps = s.dumps := rfl
@[simp] theorem State.noRoll_irqs (s : State) : (s.noRoll).irqs = s.irqs := rfl
@[simp] theorem State.noRoll_todo (s : State) : (s.noRoll).todo = s.todo := rfl
@[simp] theorem State.noRoll_inbox (s : State) : (s.noRoll).inbox = s.inbox := rfl
@[simp] theorem State.noRoll_frame (s : State) : (s.noRoll).frame = s.frame := rfl
@[simp] theorem State.noRoll_ctr (s : State) : (s.noRoll).ctr = s.ctr := rfl
@[simp] theorem State.queueAccess_pcc (s : State) (d : Nat) (k : AccessKind) : (s.queueAccess d k).pcc = s.pcc := rfl
@[simp] theorem State.queueAccess_mem (s : State) (d : Nat) (k : AccessKind) : (s.queueAccess d k).mem = s.mem := rfl
@[simp] theorem State.queueAccess_launches (s : State) (d : Nat) (k : AccessKind) : (s.queueAccess d k).launches = s.launches := rfl
@[simp] theorem State.queueAccess_parts (s : State) (d : Nat) (k : AccessKind) : (s.queueAccess d k).parts = s.parts := rfl
@[simp] theorem State.queueAccess_tx (s : State) (d : Nat) (k : AccessKind) : (s.queueAccess d k).tx = s.tx := rfl
@[simp] theorem State.queueAccess_prq (s : State) (d : Nat) (k : AccessKind) : (s.queueAccess d k).prq = s.prq := rfl
@[simp] theorem State.queueAccess_waits (s : State) (d : Nat) (k : AccessKind) : (s.queueAccess d k).waits = s.waits := rfl
@[simp] theorem State.queueAccess_pkg (s : State) (d : Nat) (k : AccessKind) : (s.queueAccess d k).pkg = s.pkg := rfl
@[simp] theorem State.queueAccess_jname (s : State) (d : Nat) (k : AccessKind) : (s.queueAccess d k).jname = s.jname := rfl
@[simp] theorem State.queueAccess_dumps (s : State) (d : Nat) (k : AccessKind) : (s.queueAccess d k).dumps = s.dumps := rfl
@[simp] theorem State.queueAccess_irqs (s : State) (d : Nat) (k : AccessKind) : (s.queueAccess d k).irqs = s.irqs := rfl
@[simp] theorem State.queueAccess_todo (s : State) (d : Nat) (k : AccessKind) : (s.queueAccess d k).todo = s.todo := rfl
@[simp] theorem State.queueAccess_inbox (s : State) (d : Nat) (k : AccessKind) : (s.queueAccess d k).inbox = s.inbox := rfl
@[simp] theorem State.queueAccess_frame (s : State) (d : Nat) (k : AccessKind) : (s.queueAccess d k).frame = s.frame := rfl
@[simp] theorem State.queueAccess_ctr (s : State) (d : Nat) (k : AccessKind) : (s.queueAccess d k).ctr = s.ctr := rfl
@[simp] theorem State.draw_pcc (s : State) : (s.draw.2).pcc = s.pcc := rfl
@[simp] theorem State.draw_mem (s : State) : (s.draw.2).mem = s.mem := rfl
@[simp] theorem State.draw_cores (s : State) : (s.draw.2).cores = s.cores := rfl
@[simp] theorem State.draw_launches (s : State) : (s.draw.2).launches = s.launches := rfl
@[simp] theorem State.draw_parts (s : State) : (s.draw.2).parts = s.parts := rfl
@[simp] theorem State.draw_tx (s : State) : (s.draw.2).tx = s.tx := rfl
@[simp] theorem State.draw_prq (s : State) : (s.draw.2).prq = s.prq := rfl
@[simp] theorem State.draw_waits (s : State) : (s.draw.2).waits = s.waits := rfl
@[simp] theorem State.draw_pkg (s : State) : (s.draw.2).pkg = s.pkg := rfl
@[simp] theorem State.draw_jname (s : State) : (s.draw.2).jname = s.jname := rfl
@[simp] theorem State.draw_dumps (s : State) : (s.draw.2).dumps = s.dumps := rfl
@[simp] theorem State.draw_irqs (s : State) : (s.draw.2).irqs = s.irqs := rfl
@[simp] theorem State.draw_todo (s : State) : (s.draw.2).todo = s.todo := rfl
@[simp] theorem State.draw_inbox (s : State) : (s.draw.2).inbox = s.inbox := rfl
@[simp] theorem State.draw_frame (s : State) : (s.draw.2).frame = s.frame := rfl
@[simp] theorem State.setCoreAt_cores (s : State) (n : Nat) (k : Core) : (s.setCoreAt n k).cores = s.cores.put n k := rfl
@[simp] theorem State.draw_fst (s : State) : s.draw.1 = s.ctr := rfl
@[simp] theorem State.draw_ctr (s : State) : s.draw.2.ctr = s.ctr + 1 := rfl
@[simp] theorem State.setPart_parts (s : State) (p : Nat) (x : Partition) : (s.setPart p x).parts = s.parts.put p x := rfl
@[simp] theorem State.setTx_tx (s : State) (p d : Nat) (x : TxBlock) : (s.setTx p d x).tx = s.tx.put (3 * p + d) x := rfl
@[simp] theorem State.raise_frame (s : State) (e : Nat) (d : W64) :
    (s.raise e d).frame = { s.frame with raised := s.frame.raised ++ [(e, d)] } := rfl
@[simp] theorem State.setFrame_frame (s : State) (f : Frame) : (s.setFrame f).frame = f := rfl

/-! ## Updates that depend on the core's launch -/

@[simp] theorem State.modLaunchAt_pcc (s : State) (n : Nat) (f : Launch → Launch) : (s.modLaunchAt n f).pcc = s.pcc := by
  simp only [State.modLaunchAt]; split <;> rfl
@[simp] theorem State.modLaunchAt_mem (s : State) (n : Nat) (f : Launch → Launch) : (s.modLaunchAt n f).mem = s.mem := by
  simp only [State.modLaunchAt]; split <;> rfl
@[simp] theorem State.modLaunchAt_cores (s : State) (n : Nat) (f : Launch → Launch) : (s.modLaunchAt n f).cores = s.cores := by
  simp only [State.modLaunchAt]; split <;> rfl
@[simp] theorem State.modLaunchAt_parts (s : State) (n : Nat) (f : Launch → Launch) : (s.modLaunchAt n f).parts = s.parts := by
  simp only [State.modLaunchAt]; split <;> rfl
@[simp] theorem State.modLaunchAt_tx (s : State) (n : Nat) (f : Launch → Launch) : (s.modLaunchAt n f).tx = s.tx := by
  simp only [State.modLaunchAt]; split <;> rfl
@[simp] theorem State.modLaunchAt_prq (s : State) (n : Nat) (f : Launch → Launch) : (s.modLaunchAt n f).prq = s.prq := by
  simp only [State.modLaunchAt]; split <;> rfl
@[simp] theorem State.modLaunchAt_waits (s : State) (n : Nat) (f : Launch → Launch) : (s.modLaunchAt n f).waits = s.waits := by
  simp only [State.modLaunchAt]; split <;> rfl
@[simp] theorem State.modLaunchAt_pkg (s : State) (n : Nat) (f : Launch → Launch) : (s.modLaunchAt n f).pkg = s.pkg := by
  simp only [State.modLaunchAt]; split <;> rfl
@[simp] theorem State.modLaunchAt_jname (s : State) (n : Nat) (f : Launch → Launch) : (s.modLaunchAt n f).jname = s.jname := by
  simp only [State.modLaunchAt]; split <;> rfl
@[simp] theorem State.modLaunchAt_dumps (s : State) (n : Nat) (f : Launch → Launch) : (s.modLaunchAt n f).dumps = s.dumps := by
  simp only [State.modLaunchAt]; split <;> rfl
@[simp] theorem State.modLaunchAt_irqs (s : State) (n : Nat) (f : Launch → Launch) : (s.modLaunchAt n f).irqs = s.irqs := by
  simp only [State.modLaunchAt]; split <;> rfl
@[simp] theorem State.modLaunchAt_todo (s : State) (n : Nat) (f : Launch → Launch) : (s.modLaunchAt n f).todo = s.todo := by
  simp only [State.modLaunchAt]; split <;> rfl
@[simp] theorem State.modLaunchAt_inbox (s : State) (n : Nat) (f : Launch → Launch) : (s.modLaunchAt n f).inbox = s.inbox := by
  simp only [State.modLaunchAt]; split <;> rfl
@[simp] theorem State.modLaunchAt_frame (s : State) (n : Nat) (f : Launch → Launch) : (s.modLaunchAt n f).frame = s.frame := by
  simp only [State.modLaunchAt]; split <;> rfl
@[simp] theorem State.modLaunchAt_ctr (s : State) (n : Nat) (f : Launch → Launch) : (s.modLaunchAt n f).ctr = s.ctr := by
  simp only [State.modLaunchAt]; split <;> rfl
@[simp] theorem State.charge_pcc (s : State) (n c m : Nat) : (s.charge n c m).pcc = s.pcc := by
  simp only [State.charge]; split <;> rfl
@[simp] theorem State.charge_mem (s : State) (n c m : Nat) : (s.charge n c m).mem = s.mem := by
  simp only [State.charge]; split <;> rfl
@[simp] theorem State.charge_cores (s : State) (n c m : Nat) : (s.charge n c m).cores = s.cores := by
  simp only [State.charge]; split <;> rfl
@[simp] theorem State.charge_launches (s : State) (n c m : Nat) : (s.charge n c m).launches = s.launches := by
  simp only [State.charge]; split <;> rfl
@[simp] theorem State.charge_tx (s : State) (n c m : Nat) : (s.charge n c m).tx = s.tx := by
  simp only [State.charge]; split <;> rfl
@[simp] theorem State.charge_prq (s : State) (n c m : Nat) : (s.charge n c m).prq = s.prq := by
  simp only [State.charge]; split <;> rfl
@[simp] theorem State.charge_waits (s : State) (n c m : Nat) : (s.charge n c m).waits = s.waits := by
  simp only [State.charge]; split <;> rfl
@[simp] theorem State.charge_jname (s : State) (n c m : Nat) : (s.charge n c m).jname = s.jname := by
  simp only [State.charge]; split <;> rfl
@[simp] theorem State.charge_dumps (s : State) (n c m : Nat) : (s.charge n c m).dumps = s.dumps := by
  simp only [State.charge]; split <;> rfl
@[simp] theorem State.charge_irqs (s : State) (n c m : Nat) : (s.charge n c m).irqs = s.irqs := by
  simp only [State.charge]; split <;> rfl
@[simp] theorem State.charge_todo (s : State) (n c m : Nat) : (s.charge n c m).todo = s.todo := by
  simp only [State.charge]; split <;> rfl
@[simp] theorem State.charge_inbox (s : State) (n c m : Nat) : (s.charge n c m).inbox = s.inbox := by
  simp only [State.charge]; split <;> rfl
@[simp] theorem State.charge_frame (s : State) (n c m : Nat) : (s.charge n c m).frame = s.frame := by
  simp only [State.charge]; split <;> rfl
@[simp] theorem State.charge_ctr (s : State) (n c m : Nat) : (s.charge n c m).ctr = s.ctr := by
  simp only [State.charge]; split <;> rfl
@[simp] theorem State.chargeHere_pcc (s : State) (c m : Nat) : (s.chargeHere c m).pcc = s.pcc := by
  simp only [State.chargeHere, State.charge]; split <;> rfl
@[simp] theorem State.chargeHere_mem (s : State) (c m : Nat) : (s.chargeHere c m).mem = s.mem := by
  simp only [State.chargeHere, State.charge]; split <;> rfl
@[simp] theorem State.chargeHere_cores (s : State) (c m : Nat) : (s.chargeHere c m).cores = s.cores := by
  simp only [State.chargeHere, State.charge]; split <;> rfl
@[simp] theorem State.chargeHere_launches (s : State) (c m : Nat) : (s.chargeHere c m).launches = s.launches := by
  simp only [State.chargeHere, State.charge]; split <;> rfl
@[simp] theorem State.chargeHere_tx (s : State) (c m : Nat) : (s.chargeHere c m).tx = s.tx := by
  simp only [State.chargeHere, State.charge]; split <;> rfl
@[simp] theorem State.chargeHere_prq (s : State) (c m : Nat) : (s.chargeHere c m).prq = s.prq := by
  simp only [State.chargeHere, State.charge]; split <;> rfl
@[simp] theorem State.chargeHere_waits (s : State) (c m : Nat) : (s.chargeHere c m).waits = s.waits := by
  simp only [State.chargeHere, State.charge]; split <;> rfl
@[simp] theorem State.chargeHere_jname (s : State) (c m : Nat) : (s.chargeHere c m).jname = s.jname := by
  simp only [State.chargeHere, State.charge]; split <;> rfl
@[simp] theorem State.chargeHere_dumps (s : State) (c m : Nat) : (s.chargeHere c m).dumps = s.dumps := by
  simp only [State.chargeHere, State.charge]; split <;> rfl
@[simp] theorem State.chargeHere_irqs (s : State) (c m : Nat) : (s.chargeHere c m).irqs = s.irqs := by
  simp only [State.chargeHere, State.charge]; split <;> rfl
@[simp] theorem State.chargeHere_todo (s : State) (c m : Nat) : (s.chargeHere c m).todo = s.todo := by
  simp only [State.chargeHere, State.charge]; split <;> rfl
@[simp] theorem State.chargeHere_inbox (s : State) (c m : Nat) : (s.chargeHere c m).inbox = s.inbox := by
  simp only [State.chargeHere, State.charge]; split <;> rfl
@[simp] theorem State.chargeHere_frame (s : State) (c m : Nat) : (s.chargeHere c m).frame = s.frame := by
  simp only [State.chargeHere, State.charge]; split <;> rfl
@[simp] theorem State.chargeHere_ctr (s : State) (c m : Nat) : (s.chargeHere c m).ctr = s.ctr := by
  simp only [State.chargeHere, State.charge]; split <;> rfl

/-! ## The fields of a core that an update of a context or an engine leaves -/

@[simp] theorem Core.setCtx_cyc (k : Core) (c : Nat) (x : Ctx) : (k.setCtx c x).cyc = k.cyc := rfl
@[simp] theorem Core.setCtx_issuing (k : Core) (c : Nat) (x : Ctx) : (k.setCtx c x).issuing = k.issuing := rfl
@[simp] theorem Core.setCtx_svc (k : Core) (c : Nat) (x : Ctx) : (k.setCtx c x).svc = k.svc := rfl
@[simp] theorem Core.setCtx_scratch (k : Core) (c : Nat) (x : Ctx) : (k.setCtx c x).scratch = k.scratch := rfl
@[simp] theorem Core.setCtx_larder (k : Core) (c : Nat) (x : Ctx) : (k.setCtx c x).larder = k.larder := rfl
@[simp] theorem Core.setCtx_accs (k : Core) (c : Nat) (x : Ctx) : (k.setCtx c x).accs = k.accs := rfl
@[simp] theorem Core.setCtx_me0 (k : Core) (c : Nat) (x : Ctx) : (k.setCtx c x).me0 = k.me0 := rfl
@[simp] theorem Core.setCtx_me1 (k : Core) (c : Nat) (x : Ctx) : (k.setCtx c x).me1 = k.me1 := rfl
@[simp] theorem Core.setCtx_ce (k : Core) (c : Nat) (x : Ctx) : (k.setCtx c x).ce = k.ce := rfl
@[simp] theorem Core.setCtx_wps (k : Core) (c : Nat) (x : Ctx) : (k.setCtx c x).wps = k.wps := rfl
@[simp] theorem Core.setCtx_pwr (k : Core) (c : Nat) (x : Ctx) : (k.setCtx c x).pwr = k.pwr := rfl
@[simp] theorem Core.setCtx_lease (k : Core) (c : Nat) (x : Ctx) : (k.setCtx c x).lease = k.lease := rfl
@[simp] theorem Core.setCtx_rows (k : Core) (c : Nat) (x : Ctx) : (k.setCtx c x).rows = k.rows := rfl
@[simp] theorem Core.setCtx_tr (k : Core) (c : Nat) (x : Ctx) : (k.setCtx c x).tr = k.tr := rfl
@[simp] theorem Core.setCtx_launch (k : Core) (c : Nat) (x : Ctx) : (k.setCtx c x).launch = k.launch := rfl
@[simp] theorem Core.setCtx_hold (k : Core) (c : Nat) (x : Ctx) : (k.setCtx c x).hold = k.hold := rfl
@[simp] theorem Core.setCtx_stall (k : Core) (c : Nat) (x : Ctx) : (k.setCtx c x).stall = k.stall := rfl
@[simp] theorem Core.setCtx_last (k : Core) (c : Nat) (x : Ctx) : (k.setCtx c x).last = k.last := rfl
@[simp] theorem Core.setCtx_energy (k : Core) (c : Nat) (x : Ctx) : (k.setCtx c x).energy = k.energy := rfl
@[simp] theorem Core.setCtx_seq (k : Core) (c : Nat) (x : Ctx) : (k.setCtx c x).seq = k.seq := rfl
@[simp] theorem Core.setEng_cyc (k : Core) (e : Bool) (g : Engine) : (k.setEng e g).cyc = k.cyc := by cases e <;> rfl
@[simp] theorem Core.setEng_ctxs (k : Core) (e : Bool) (g : Engine) : (k.setEng e g).ctxs = k.ctxs := by cases e <;> rfl
@[simp] theorem Core.setEng_issuing (k : Core) (e : Bool) (g : Engine) : (k.setEng e g).issuing = k.issuing := by cases e <;> rfl
@[simp] theorem Core.setEng_svc (k : Core) (e : Bool) (g : Engine) : (k.setEng e g).svc = k.svc := by cases e <;> rfl
@[simp] theorem Core.setEng_scratch (k : Core) (e : Bool) (g : Engine) : (k.setEng e g).scratch = k.scratch := by cases e <;> rfl
@[simp] theorem Core.setEng_larder (k : Core) (e : Bool) (g : Engine) : (k.setEng e g).larder = k.larder := by cases e <;> rfl
@[simp] theorem Core.setEng_accs (k : Core) (e : Bool) (g : Engine) : (k.setEng e g).accs = k.accs := by cases e <;> rfl
@[simp] theorem Core.setEng_ce (k : Core) (e : Bool) (g : Engine) : (k.setEng e g).ce = k.ce := by cases e <;> rfl
@[simp] theorem Core.setEng_wps (k : Core) (e : Bool) (g : Engine) : (k.setEng e g).wps = k.wps := by cases e <;> rfl
@[simp] theorem Core.setEng_pwr (k : Core) (e : Bool) (g : Engine) : (k.setEng e g).pwr = k.pwr := by cases e <;> rfl
@[simp] theorem Core.setEng_lease (k : Core) (e : Bool) (g : Engine) : (k.setEng e g).lease = k.lease := by cases e <;> rfl
@[simp] theorem Core.setEng_rows (k : Core) (e : Bool) (g : Engine) : (k.setEng e g).rows = k.rows := by cases e <;> rfl
@[simp] theorem Core.setEng_tr (k : Core) (e : Bool) (g : Engine) : (k.setEng e g).tr = k.tr := by cases e <;> rfl
@[simp] theorem Core.setEng_launch (k : Core) (e : Bool) (g : Engine) : (k.setEng e g).launch = k.launch := by cases e <;> rfl
@[simp] theorem Core.setEng_hold (k : Core) (e : Bool) (g : Engine) : (k.setEng e g).hold = k.hold := by cases e <;> rfl
@[simp] theorem Core.setEng_stall (k : Core) (e : Bool) (g : Engine) : (k.setEng e g).stall = k.stall := by cases e <;> rfl
@[simp] theorem Core.setEng_last (k : Core) (e : Bool) (g : Engine) : (k.setEng e g).last = k.last := by cases e <;> rfl
@[simp] theorem Core.setEng_energy (k : Core) (e : Bool) (g : Engine) : (k.setEng e g).energy = k.energy := by cases e <;> rfl
@[simp] theorem Core.setEng_seq (k : Core) (e : Bool) (g : Engine) : (k.setEng e g).seq = k.seq := by cases e <;> rfl
@[simp] theorem Core.trace_cyc (k : Core) (p c t i v : Nat) : (k.trace p c t i v).cyc = k.cyc := rfl
@[simp] theorem Core.trace_ctxs (k : Core) (p c t i v : Nat) : (k.trace p c t i v).ctxs = k.ctxs := rfl
@[simp] theorem Core.trace_issuing (k : Core) (p c t i v : Nat) : (k.trace p c t i v).issuing = k.issuing := rfl
@[simp] theorem Core.trace_svc (k : Core) (p c t i v : Nat) : (k.trace p c t i v).svc = k.svc := rfl
@[simp] theorem Core.trace_scratch (k : Core) (p c t i v : Nat) : (k.trace p c t i v).scratch = k.scratch := rfl
@[simp] theorem Core.trace_larder (k : Core) (p c t i v : Nat) : (k.trace p c t i v).larder = k.larder := rfl
@[simp] theorem Core.trace_accs (k : Core) (p c t i v : Nat) : (k.trace p c t i v).accs = k.accs := rfl
@[simp] theorem Core.trace_me0 (k : Core) (p c t i v : Nat) : (k.trace p c t i v).me0 = k.me0 := rfl
@[simp] theorem Core.trace_me1 (k : Core) (p c t i v : Nat) : (k.trace p c t i v).me1 = k.me1 := rfl
@[simp] theorem Core.trace_ce (k : Core) (p c t i v : Nat) : (k.trace p c t i v).ce = k.ce := rfl
@[simp] theorem Core.trace_wps (k : Core) (p c t i v : Nat) : (k.trace p c t i v).wps = k.wps := rfl
@[simp] theorem Core.trace_pwr (k : Core) (p c t i v : Nat) : (k.trace p c t i v).pwr = k.pwr := rfl
@[simp] theorem Core.trace_lease (k : Core) (p c t i v : Nat) : (k.trace p c t i v).lease = k.lease := rfl
@[simp] theorem Core.trace_rows (k : Core) (p c t i v : Nat) : (k.trace p c t i v).rows = k.rows := rfl
@[simp] theorem Core.trace_launch (k : Core) (p c t i v : Nat) : (k.trace p c t i v).launch = k.launch := rfl
@[simp] theorem Core.trace_hold (k : Core) (p c t i v : Nat) : (k.trace p c t i v).hold = k.hold := rfl
@[simp] theorem Core.trace_stall (k : Core) (p c t i v : Nat) : (k.trace p c t i v).stall = k.stall := rfl
@[simp] theorem Core.trace_last (k : Core) (p c t i v : Nat) : (k.trace p c t i v).last = k.last := rfl
@[simp] theorem Core.trace_energy (k : Core) (p c t i v : Nat) : (k.trace p c t i v).energy = k.energy := rfl
@[simp] theorem Core.trace_seq (k : Core) (p c t i v : Nat) : (k.trace p c t i v).seq = k.seq := rfl

/-! ## Reading after an update -/

@[simp] theorem State.coreAt_setCoreAt (s : State) (n : Nat) (k : Core) : (s.setCoreAt n k).coreAt n = k :=
  SMap.get_put_same ..
theorem State.coreAt_setCoreAt_other (s : State) {n m : Nat} (k : Core) (h : m ≠ n) :
    (s.setCoreAt n k).coreAt m = s.coreAt m := SMap.get_put_other _ _ _ h
@[simp] theorem State.core_setCore (s : State) (k : Core) : (s.setCore k).core = k := SMap.get_put_same ..
theorem State.coreAt_setCore_other (s : State) {m : Nat} (k : Core) (h : m ≠ s.frame.cur.core) :
    (s.setCore k).coreAt m = s.coreAt m := SMap.get_put_other _ _ _ h
@[simp] theorem Core.ctx_setCtx (k : Core) (c : Nat) (x : Ctx) : (k.setCtx c x).ctx c = x := SMap.get_put_same ..
theorem Core.ctx_setCtx_other (k : Core) {c d : Nat} (x : Ctx) (h : d ≠ c) : (k.setCtx c x).ctx d = k.ctx d :=
  SMap.get_put_other _ _ _ h
@[simp] theorem State.core_setCtx (s : State) (x : Ctx) : (s.setCtx x).core = s.core.setCtx s.frame.cur.ctx x :=
  SMap.get_put_same ..
@[simp] theorem State.ctx_setCtx (s : State) (x : Ctx) : (s.setCtx x).ctx = x := by simp [State.ctx]
@[simp] theorem State.arch_setArch (s : State) (a : CtxArch) : (s.setArch a).arch = a := by
  simp [State.arch, State.setArch]
theorem State.coreAt_setCtx_other (s : State) {m : Nat} (x : Ctx) (h : m ≠ s.frame.cur.core) :
    (s.setCtx x).coreAt m = s.coreAt m := State.coreAt_setCore_other s _ h
@[simp] theorem State.part_setPart (s : State) (p : Nat) (x : Partition) : (s.setPart p x).part p = x := SMap.get_put_same ..
theorem State.part_setPart_other (s : State) {p q : Nat} (x : Partition) (h : q ≠ p) : (s.setPart p x).part q = s.part q :=
  SMap.get_put_other _ _ _ h
@[simp] theorem State.txAt_setTx (s : State) (p d : Nat) (x : TxBlock) : (s.setTx p d x).txAt p d = x := SMap.get_put_same ..
@[simp] theorem Core.eng_setEng (k : Core) (e : Bool) (g : Engine) : (k.setEng e g).eng e = g := by cases e <;> rfl
theorem Core.eng_setEng_other (k : Core) (e : Bool) (g : Engine) : (k.setEng e g).eng (!e) = k.eng (!e) := by cases e <;> rfl
@[simp] theorem Core.ctx_setEng (k : Core) (e : Bool) (g : Engine) (c : Nat) : (k.setEng e g).ctx c = k.ctx c := by cases e <;> rfl
@[simp] theorem Core.eng_setCtx (k : Core) (c : Nat) (x : Ctx) (e : Bool) : (k.setCtx c x).eng e = k.eng e := rfl

/-! ## Updates that follow one another -/

@[simp] theorem State.setCoreAt_setCoreAt (s : State) (n : Nat) (k j : Core) : (s.setCoreAt n k).setCoreAt n j = s.setCoreAt n j := by
  simp [State.setCoreAt]
@[simp] theorem State.setCore_setCore (s : State) (k j : Core) : (s.setCore k).setCore j = s.setCore j := by
  simp [State.setCore]
@[simp] theorem Core.setCtx_setCtx (k : Core) (c : Nat) (x y : Ctx) : (k.setCtx c x).setCtx c y = k.setCtx c y := by
  simp [Core.setCtx]
@[simp] theorem State.setCtx_setCtx (s : State) (x y : Ctx) : (s.setCtx x).setCtx y = s.setCtx y := by
  simp [State.setCtx]
@[simp] theorem State.setPart_setPart (s : State) (p : Nat) (x y : Partition) : (s.setPart p x).setPart p y = s.setPart p y := by
  simp [State.setPart]

/-- Energy leaves every core as it was. -/
@[simp] theorem State.coreAt_charge (s : State) (n c m i : Nat) : (s.charge n c m).coreAt i = s.coreAt i := by
  simp [State.coreAt]

end Sys2Proof.Machine
end

