-- ==== Sys2Proof/Laws/Events.lean ====
section
/-!
SUPPORT. What the operations shared by the events outside a slot can do: a row's step toward its operating point, charges,
host events, commands, completions, stops and their capture, the save; one lemma for each.
-/
namespace Sys2Proof.Machine

/-- A core's step toward its operating point touches its power alone, and its window alone there (R240). -/
theorem retarget_only (k : Core) (n : Nat) : ∃ w, k.retarget n = { k with pwr := { k.pwr with window := w } } := by
  unfold Core.retarget
  split
  · exact ⟨k.pwr.window, rfl⟩
  · exact ⟨_, rfl⟩

/-- A charge to the device overhead account changes that account alone (R347). -/
theorem chargeOver_only (s : State) (core cls n : Nat) :
    ∃ e, s.chargeOver core cls n = { s with pkg := { s.pkg with ovhenergy := e } } := ⟨_, rfl⟩

/-- A host event writes its record to the ring, or is lost; it changes the ring's counters, memory and the interrupts (R374). -/
theorem hostEvent_only (s : State) (type : Nat) (fields : List Nat) :
    ∃ m i l q, s.hostEvent type fields = { s with mem := m, irqs := q, pkg := { s.pkg with hevidx := i, hevlost := l } } := by
  simp only [State.hostEvent]
  split
  · exact ⟨s.mem, s.pkg.hevidx, _, s.irqs, rfl⟩
  · exact ⟨_, _, s.pkg.hevlost, _, rfl⟩
theorem hostEvent_wf {s : State} (type : Nat) (fields : List Nat) (h : s.mem.wf = true) : (s.hostEvent type fields).mem.wf = true := by
  simp only [State.hostEvent]
  split
  · exact h
  · exact Memory.wf_writeBytes h

/-- A command written while another runs marks that one (R339). -/
theorem command_busy {s : State} (op : Nat) (f : State → Except Nat State) (h : s.pkg.pcmdBusy = true) :
    s.command op f = { s with pkg := { s.pkg with again := true } } := by simp only [State.command, h, if_true]
/-- One that is accepted holds its operation and partition, and ends as its body says (R339). -/
theorem command_runs {s : State} (op : Nat) (f : State → Except Nat State) (h : s.pkg.pcmdBusy = false) :
    s.command op f =
      let t := { s with pkg := { s.pkg with pcmdgo := BitVec.ofNat 64 (256 * op + s.frame.cur.part % 64), pcmdBusy := true,
                                            cmdAddr := s.pcmdAddr } }
      match f t with
      | .ok u => u
      | .error e => t.endCommand e := by
  exact (if_neg (by simp [h]) : s.command op f = _)

/-- After a boot that reached stage 5 without error 1 everything responds (R372). -/
theorem responds_booted {s : State} (i : Instr) (h1 : s.pkg.bootErr ≠ 1) (h5 : 5 ≤ s.pkg.stage) : s.responds i = true := by
  simp only [State.responds, beq_eq_false_iff_ne.mpr h1, decide_eq_false (Nat.not_lt.mpr h5), Bool.false_and, Bool.not_false,
             Bool.and_self]

/-- What a core keeps when its launch leaves it: all but its owner records (R32, R239, R293). -/
theorem letGo_keeps (k : Core) (n : Nat) : (k.letGo n).ctxs = k.ctxs ∧ (k.letGo n).scratch = k.scratch ∧
    (k.letGo n).larder = k.larder ∧ (k.letGo n).rows = { k.rows with owner := [] } ∧ (k.letGo n).launch = none := by
  obtain ⟨w, h⟩ := retarget_only { k with launch := none, rows := { k.rows with owner := [] }, issuing := none, lease := none,
                                          pwr := { k.pwr with req := min k.pwr.req 6, deferred := none } } n
  unfold Core.letGo
  rw [h]
  exact ⟨rfl, rfl, rfl, rfl, rfl⟩

/-- A first stop of a context adds its mark; a further error of its cycle joins it (R321). -/
theorem mark_new {k : Core} {m : StopMark} (h : (k.marks.any fun n => n.ctx == m.ctx) = false) :
    k.mark m = { k with marks := k.marks ++ [m] } := by simp only [Core.mark, h, Bool.false_eq_true, if_false]
theorem mark_again {k : Core} {m : StopMark} (h : (k.marks.any fun n => n.ctx == m.ctx) = true) :
    (k.mark m).marks.map (·.ctx) = k.marks.map (·.ctx) := by
  simp only [Core.mark, h, if_true, List.map_map]
  apply List.map_congr_left
  intro n _
  simp only [Function.comp]
  split <;> rfl

/-- Asking for a capture only adds a step that is due (R325). -/
theorem askCapture_only (s : State) (core : Nat) : ∃ t, s.askCapture core = { s with todo := t } := by
  unfold State.askCapture
  split
  · exact ⟨s.todo, rfl⟩
  · exact ⟨_, rfl⟩

/-- A context that is absent, or that stopped in an earlier cycle, is left by a stop (R59). -/
theorem stopOnly_absent {s : State} {core c : Nat} (i : StopInfo) (hd : Option (Ctx × Service))
    (h : ((s.coreAt core).ctx c).status = .absent) : s.stopOnly core c i hd = s := by simp only [State.stopOnly, h, if_true]
theorem stopOnly_stopped {s : State} {core c : Nat} (i : StopInfo) (hd : Option (Ctx × Service))
    (h : ((s.coreAt core).ctx c).status = .stopped) (m : ((s.coreAt core).marks.any fun n => n.ctx == c) = false) :
    s.stopOnly core c i hd = s := by simp [State.stopOnly, h, m]

/-- With no stop there is nothing to capture. -/
theorem captureNow_none {s : State} {core : Nat} (h : (s.coreAt core).marks = []) : s.captureNow core = s := by
  simp only [State.captureNow, h, List.isEmpty_nil, if_true]

/-- A save into a migration area is written whole (R353). -/
theorem writeSave_area {s : State} {l : Launch} {a : Nat} (h : l.area = some a) (ps : List (Nat × List Byte)) :
    s.writeSave l ps = .ok { s with mem := ps.foldl (fun m p => m.writeBytes (a + p.1) p.2) s.mem } := by
  simp only [State.writeSave, h]
/-- A save whose first piece does not translate ends in that address (R306). -/
theorem writeSave_stops {s : State} {l : Launch} {p : Nat × List Byte} {e : W64} (ps : List (Nat × List Byte)) (h : l.area = none)
    (w : s.vwrite l.part (s.homeDie l.part) (l.lr.save + BitVec.ofNat 64 p.1) p.2 = .error e) :
    s.writeSave l (p :: ps) = .error e := by
  simp only [State.writeSave, h, List.foldl_cons, w]
  induction ps with
  | nil => rfl
  | cons q r ih => exact ih

end Sys2Proof.Machine
end

