-- ==== Sys2Proof/Laws/Forms.lean ====
section
/-!
SUPPORT. What the operand forms and the shared operations do: a trigger whose guard holds fires, one whose guard is false
does nothing, a result goes in flight, an access is queued, an error is raised.
-/
namespace Sys2Proof.Machine

/-! ## Triggers (R69, R72, R79) -/

theorem trigger_fires {s : State} {w : Slot} {f : TVal → State → State} (h : s.guard w.gd = true) (k : s.srcOk w.src = true) :
    s.trigger w f = f (s.srcVal w.src) s := by simp [State.trigger, h, k]
theorem trigger_idle {s : State} {w : Slot} {f : TVal → State → State} (h : s.guard w.gd = false) : s.trigger w f = s := by
  simp [State.trigger, h]
theorem triggerExt_fires {s : State} {w : Slot} {x y : Nat} {f : TVal → State → State} {e : Word24} {rest : List Word24}
    (h : s.guard w.gd = true) (r : s.frame.rest = e :: rest) (ke : s.extOk e = true) (k : s.srcOk w.src = true) :
    s.triggerExt w x y f = f (s.srcVal w.src)
      ((({ s with frame := { s.frame with rest := rest } } : State).setOpnd x (s.srcVal (extX e))).setOpnd y
        (s.srcVal (extY e))) := by
  simp [State.triggerExt, h, r, ke, k]
theorem triggerExt_idle {s : State} {w : Slot} {x y : Nat} {f : TVal → State → State} (h : s.guard w.gd = false) :
    s.triggerExt w x y f = s := by simp [State.triggerExt, h]
theorem carried_cons {s : State} {f : Word24 → State → State} {c : Word24} {rest : List Word24} (r : s.frame.rest = c :: rest) :
    s.carried f = f c { s with frame := { s.frame with rest := rest } } := by simp [State.carried, r]
theorem move_writes {s : State} {w : Slot} {d : BitVec 9} (h : s.guard w.gd = true) (k : s.srcOk w.src = true)
    (l : dstLegal s.inHandler s.arch.bind s.frame.cur.slot d = true) : s.move w d = s.writeDst d (s.srcVal w.src) := by
  simp [State.move, h, k, l]
theorem orElse_ok {s : State} {f : State → State} : s.orElse [] f = f s := rfl

/-! ## The shared operations -/

/-- A result in flight: due its latency after the bundle, behind those already there (R45). -/
theorem pushResult_pipe (s : State) (p l : Nat) (v : TVal) (f : Flags) :
    (s.pushResult p l v f).arch.pipe =
      s.arch.pipe ++ [{ seq := s.core.seq, port := p, due := s.arch.sclk + BitVec.ofNat 64 l, res := v, flags := f }] := by
  unfold State.arch State.ctx State.pushResult
  rw [State.setCore_frame, State.core_setCore, Core.ctx_setCtx]
theorem pushResult_arch (s : State) (p l : Nat) (v : TVal) (f : Flags) :
    (s.pushResult p l v f).arch = { s.arch with pipe := (s.pushResult p l v f).arch.pipe } := by
  rw [pushResult_pipe]
  unfold State.arch State.ctx State.pushResult
  rw [State.setCore_frame, State.core_setCore, Core.ctx_setCtx]
/-- An access queued at its core cycle (R157). -/
theorem queueAccess_accs (s : State) (d : Nat) (k : AccessKind) :
    (s.queueAccess d k).core.accs = s.core.accs ++
      [{ due := d, ctx := s.frame.cur.ctx, slot := s.frame.cur.slot, pc := s.frame.pc, sclk := s.arch.sclk, kind := k }] := by
  unfold State.queueAccess
  rw [State.core_setCore]
/-- An error raised waits for the end of the bundle's checks (R59). -/
theorem raise_raised (s : State) (e : Nat) (d : W64) : (s.raise e d).frame.raised = s.frame.raised ++ [(e, d)] := rfl
theorem raise_cores (s : State) (e : Nat) (d : W64) : (s.raise e d).cores = s.cores := rfl

/-! ## Landings (R12, R16, R41, R44) -/

@[simp] theorem Face.land_vis {α : Type} (f : Face α) (v : α) : (f.land v).vis = f.vis := rfl
@[simp] theorem Face.land_hid {α : Type} (f : Face α) (v : α) : (f.land v).hid = v := rfl
@[simp] theorem Face.land_wr {α : Type} (f : Face α) (v : α) : (f.land v).wr = true := rfl
theorem Face.flip_written {α : Type} {f : Face α} (h : f.wr = true) : f.flip.vis = f.hid ∧ f.flip.hid = f.vis ∧ f.flip.wr = false := by
  simp [Face.flip, h]
theorem Face.flip_clear {α : Type} {f : Face α} (h : f.wr = false) : f.flip = f := by simp [Face.flip, h]
theorem landS_getS (r : RegFile) (n m : Nat) (v : W32) :
    (r.landS n v).getS m = if m = n then (r.getS n).land v else r.getS m := by
  simp [RegFile.landS, RegFile.getS, RegFile.dw, SMap.get_put]
theorem landA_getA (r : RegFile) (n m : Nat) (v : W64) :
    (r.landA n v).getA m = if m = n then (r.getA n).land v else r.getA m := by
  simp [RegFile.landA, RegFile.getA, RegFile.dw, SMap.get_put]
theorem landV_getV (r : RegFile) (n m : Nat) (v : TVal) :
    (r.landV n v).getV m = if m = n then (r.getV n).land v else r.getV m := by
  simp [RegFile.landV, RegFile.getV, RegFile.dw, SMap.get_put]
/-- p0 reads 1 on both faces after any write (R12). -/
@[simp] theorem getP_zero (r : RegFile) : r.getP 0 = { vis := true, hid := true } := rfl
@[simp] theorem landP_zero (r : RegFile) (v : Bool) : r.landP 0 v = r := rfl
theorem landP_getP (r : RegFile) {n : Nat} (m : Nat) (v : Bool) (h : n ≠ 0) :
    (r.landP n v).getP m = if m = n then (r.getP n).land v else r.getP m := by
  by_cases e : m = n
  · subst e; simp [RegFile.landP, RegFile.getP, RegFile.dw, h]
  · by_cases z : m = 0 <;> simp [RegFile.landP, RegFile.getP, RegFile.dw, h, e, z, SMap.get_put, Ne.symm h]

end Sys2Proof.Machine
end

