-- ==== Sys2Proof/Laws/Frame.lean ====
section
/-!
SUPPORT. What a slot's operation leaves as it was: main memory, the PCC, the translation registers, the dumps, the steps
due, the scratch and the Larder of its core, and every other core; one lemma for each shared operation.
-/
namespace Sys2Proof.Machine

/-- The second state keeps what no slot's operation changes in its own bundle. -/
structure SlotKeeps (s t : State) : Prop where
  mem : t.mem = s.mem
  pcc : t.pcc = s.pcc
  tx : t.tx = s.tx
  dumps : t.dumps = s.dumps
  todo : t.todo = s.todo
  cur : t.frame.cur = s.frame.cur
  scratch : t.core.scratch = s.core.scratch
  larder : t.core.larder = s.core.larder
  others : ∀ n, n ≠ s.frame.cur.core → t.coreAt n = s.coreAt n

theorem SlotKeeps.rfl {s : State} : SlotKeeps s s := ⟨.refl _, .refl _, .refl _, .refl _, .refl _, .refl _, .refl _, .refl _, fun _ _ => .refl _⟩

theorem SlotKeeps.trans {s t u : State} (h : SlotKeeps s t) (k : SlotKeeps t u) : SlotKeeps s u :=
  ⟨k.mem.trans h.mem, k.pcc.trans h.pcc, k.tx.trans h.tx, k.dumps.trans h.dumps, k.todo.trans h.todo, k.cur.trans h.cur,
   k.scratch.trans h.scratch, k.larder.trans h.larder,
   fun n hn => (k.others n (by rw [h.cur]; exact hn)).trans (h.others n hn)⟩

/-! ## The updates -/

theorem setCore_keeps {s : State} {k : Core} (h : k.scratch = s.core.scratch) (h' : k.larder = s.core.larder) :
    SlotKeeps s (s.setCore k) :=
  ⟨rfl, rfl, rfl, rfl, rfl, rfl, by rw [State.core_setCore]; exact h, by rw [State.core_setCore]; exact h',
   fun _ hn => State.coreAt_setCore_other s k hn⟩
theorem setCtx_keeps (s : State) (x : Ctx) : SlotKeeps s (s.setCtx x) := setCore_keeps rfl rfl
theorem setArch_keeps (s : State) (a : CtxArch) : SlotKeeps s (s.setArch a) := setCtx_keeps s _
theorem modRegs_keeps (s : State) (f : RegFile → RegFile) : SlotKeeps s (s.modRegs f) := setArch_keeps s _
theorem noRoll_keeps (s : State) : SlotKeeps s s.noRoll := setCtx_keeps s _
theorem setEng_keeps (s : State) (e : Bool) (g : Engine) : SlotKeeps s (s.setEng e g) := setCore_keeps (by simp) (by simp)
theorem trace_keeps (s : State) (t p : Nat) : SlotKeeps s (s.trace t p) := setCore_keeps rfl rfl
theorem pushResult_keeps (s : State) (p l : Nat) (v : TVal) (f : Flags) : SlotKeeps s (s.pushResult p l v f) :=
  setCore_keeps rfl rfl
theorem queueAccess_keeps (s : State) (d : Nat) (k : AccessKind) : SlotKeeps s (s.queueAccess d k) := setCore_keeps rfl rfl
theorem setOpnd_keeps (s : State) (id : Nat) (v : TVal) : SlotKeeps s (s.setOpnd id v) := setArch_keeps s _
/-- A change of the frame that leaves the cursor. -/
theorem frame_keeps (s : State) (f : Frame) (h : f.cur = s.frame.cur) : SlotKeeps s { s with frame := f } :=
  ⟨rfl, rfl, rfl, rfl, rfl, h, by simp [State.core, State.coreAt, h], by simp [State.core, State.coreAt, h], fun _ _ => rfl⟩
theorem rest_keeps (s : State) (r : List Word24) : SlotKeeps s { s with frame := { s.frame with rest := r } } := frame_keeps s _ rfl
theorem raise_keeps (s : State) (e : Nat) (d : W64) : SlotKeeps s (s.raise e d) := frame_keeps s _ rfl
theorem raiseSlot_keeps (s : State) (e : Nat) : SlotKeeps s (s.raiseSlot e) := raise_keeps s _ _
theorem draw_keeps (s : State) : SlotKeeps s s.draw.2 :=
  ⟨rfl, rfl, rfl, rfl, rfl, rfl, rfl, rfl, fun _ _ => rfl⟩
theorem setPart_keeps (s : State) (p : Nat) (x : Partition) : SlotKeeps s (s.setPart p x) :=
  ⟨rfl, rfl, rfl, rfl, rfl, rfl, rfl, rfl, fun _ _ => rfl⟩
theorem launches_keeps (s : State) (l : List Launch) : SlotKeeps s { s with launches := l } :=
  ⟨rfl, rfl, rfl, rfl, rfl, rfl, rfl, rfl, fun _ _ => rfl⟩
theorem modLaunchAt_keeps (s : State) (n : Nat) (f : Launch → Launch) : SlotKeeps s (s.modLaunchAt n f) := by
  unfold State.modLaunchAt; split
  · exact launches_keeps s _
  · exact .rfl
theorem charge_keeps (s : State) (n c m : Nat) : SlotKeeps s (s.charge n c m) := by
  simp only [State.charge]; split
  · exact setPart_keeps s _ _
  · exact ⟨rfl, rfl, rfl, rfl, rfl, rfl, rfl, rfl, fun _ _ => rfl⟩

/-! ## The operand forms -/

/-- A trigger keeps what its operation keeps. -/
theorem trigger_keeps {w : Slot} {f : TVal → State → State} (hf : ∀ t s, SlotKeeps s (f t s)) (s : State) :
    SlotKeeps s (s.trigger w f) := by
  unfold State.trigger; split
  · split
    · exact hf _ _
    · exact raiseSlot_keeps s _
  · exact .rfl
theorem triggerExt_keeps {w : Slot} {x y : Nat} {f : TVal → State → State} (hf : ∀ t s, SlotKeeps s (f t s)) (s : State) :
    SlotKeeps s (s.triggerExt w x y f) := by
  unfold State.triggerExt; split
  · split
    · exact raiseSlot_keeps s _
    · next e rest _ =>
      split
      · exact (rest_keeps s rest).trans ((setOpnd_keeps _ _ _).trans ((setOpnd_keeps _ _ _).trans (hf _ _)))
      · exact raiseSlot_keeps s _
  · exact .rfl
theorem carried_keeps {f : Word24 → State → State} (hf : ∀ c s, SlotKeeps s (f c s)) (s : State) :
    SlotKeeps s (s.carried f) := by
  unfold State.carried; split
  · exact raiseSlot_keeps s _
  · next c rest _ => exact (rest_keeps s rest).trans (hf _ _)
theorem writeMp_keeps (s : State) (e : Bool) (i : Nat) (v : W64) : SlotKeeps s (s.writeMp e i v) := by
  simp only [State.writeMp]; split
  · exact raise_keeps s _ _
  · exact (setEng_keeps s _ _).trans ((setCtx_keeps _ _).trans (modRegs_keeps _ _))
theorem rows_keeps (s : State) (r : Rows) : SlotKeeps s (s.setCore { s.core with rows := r }) := setCore_keeps rfl rfl
theorem hold_keeps (s : State) (n : Nat) : SlotKeeps s (s.setCore { s.core with hold := n }) := setCore_keeps rfl rfl
theorem writeV_keeps (s : State) (n : Nat) (v : TVal) : SlotKeeps s (s.writeV n v) := by
  simp only [State.writeV]; split
  · exact modRegs_keeps s _
  · exact (modRegs_keeps s _).trans (rows_keeps _ _)
theorem writeDst_keeps (s : State) (d : BitVec 9) (v : TVal) : SlotKeeps s (s.writeDst d v) := by
  simp only [State.writeDst]
  repeat (first | exact modRegs_keeps s _ | exact writeV_keeps s _ _ | exact frame_keeps s _ rfl | exact writeMp_keeps s _ _ _ | exact setOpnd_keeps s _ _ | split)
theorem move_keeps (s : State) (w : Slot) (d : BitVec 9) : SlotKeeps s (s.move w d) := by
  unfold State.move; split
  · split
    · exact writeDst_keeps s _ _
    · exact raiseSlot_keeps s _
  · exact .rfl

/-- A step's next state keeps what a slot's operation must keep. -/
def Keeps (s : State) (o : Host.Outcome State Fault Refusal) : Prop := ∀ t, o = .next t → SlotKeeps s t

theorem keeps_next {s t : State} (h : SlotKeeps s t) : Keeps s (.next t) := fun _ e => by cases e; exact h

/-! ## The families' forms -/

theorem saRun_keeps (lat : Nat) (f : W32 → W32 → W32 → W32 × Flags) (w : Slot) (s : State) : Keeps s (saRun lat f w s) :=
  keeps_next (trigger_keeps (fun _ _ => pushResult_keeps _ _ _ _ _) s)
theorem saRunExt_keeps (lat : Nat) (f : W32 → W32 → W32 → W32 × Flags) (w : Slot) (s : State) : Keeps s (saRunExt lat f w s) :=
  keeps_next (triggerExt_keeps (fun _ _ => pushResult_keeps _ _ _ _ _) s)
theorem auRun_keeps (f : W64 → W64 → W64 → W64) (w : Slot) (s : State) : Keeps s (auRun f w s) :=
  keeps_next (trigger_keeps (fun _ _ => pushResult_keeps _ _ _ _ _) s)
theorem auRunExt_keeps (f : W64 → W64 → W64 → W64) (w : Slot) (s : State) : Keeps s (auRunExt f w s) :=
  keeps_next (triggerExt_keeps (fun _ _ => pushResult_keeps _ _ _ _ _) s)
theorem vaFire_keeps (lat : Nat) (f : VIn → VOut) (t : TVal) (s : State) : SlotKeeps s (vaFire lat f t s) := by
  unfold vaFire; split
  · exact (pushResult_keeps s _ _ _ _).trans (charge_keeps _ _ _ _)
  · exact raiseSlot_keeps s _
theorem vaRun_keeps (lat : Nat) (f : VIn → VOut) (w : Slot) (s : State) : Keeps s (vaRun lat f w s) :=
  keeps_next (trigger_keeps (vaFire_keeps lat f) s)
theorem vaRunExt_keeps (lat : Nat) (f : VIn → VOut) (w : Slot) (s : State) : Keeps s (vaRunExt lat f w s) :=
  keeps_next (triggerExt_keeps (vaFire_keeps lat f) s)
theorem lsRun_keeps {op : TVal → State → State} (h : ∀ t s, SlotKeeps s (op t s)) (w : Slot) (s : State) :
    Keeps s (lsRun op w s) := keeps_next (trigger_keeps h s)
theorem lsRunExt_keeps {op : TVal → State → State} (h : ∀ t s, SlotKeeps s (op t s)) (w : Slot) (s : State) :
    Keeps s (lsRunExt op w s) := keeps_next (triggerExt_keeps h s)
theorem askRun_keeps {op : TVal → State → State} (h : ∀ t s, SlotKeeps s (op t s)) (w : Slot) (s : State) :
    Keeps s (askRun op w s) := by
  refine keeps_next ?_; split
  · exact trigger_keeps h s
  · exact raiseSlot_keeps s _
theorem askRunExt_keeps {op : TVal → State → State} (h : ∀ t s, SlotKeeps s (op t s)) (w : Slot) (s : State) :
    Keeps s (askRunExt op w s) := by
  refine keeps_next ?_; split
  · exact triggerExt_keeps h s
  · exact raiseSlot_keeps s _
theorem ctlRun_keeps {op : TVal → State → State} (h : ∀ t s, SlotKeeps s (op t s)) (n : Need) (w : Slot) (s : State) :
    Keeps s (ctlRun n op w s) := by
  refine keeps_next ?_; split
  · exact trigger_keeps h s
  · exact raiseSlot_keeps s _
theorem ctlRunExt_keeps {op : TVal → State → State} (h : ∀ t s, SlotKeeps s (op t s)) (n : Need) (w : Slot) (s : State) :
    Keeps s (ctlRunExt n op w s) := by
  refine keeps_next ?_; split
  · exact triggerExt_keeps h s
  · exact raiseSlot_keeps s _
theorem ceIssued_keeps (s : State) (id : Nat) : SlotKeeps s (s.ceIssued id) := (trace_keeps s _ _).trans (noRoll_keeps _)
theorem ceRun_keeps {op : TVal → State → State} (h : ∀ t s, SlotKeeps s (op t s)) (id : Nat) (w : Slot) (s : State) :
    Keeps s (ceRun op id w s) := keeps_next (trigger_keeps (fun _ _ => (h _ _).trans (ceIssued_keeps _ _)) s)
theorem ceRunExt_keeps {op : TVal → State → State} (h : ∀ t s, SlotKeeps s (op t s)) (id : Nat) (w : Slot) (s : State) :
    Keeps s (ceRunExt op id w s) := keeps_next (triggerExt_keeps (fun _ _ => (h _ _).trans (ceIssued_keeps _ _)) s)
theorem meRun_keeps {op : TVal → State → State} (h : ∀ t s, SlotKeeps s (op t s)) (n : Need) (w : Slot) (s : State) :
    Keeps s (meRun n op w s) := by
  refine keeps_next ?_; split
  · exact trigger_keeps (fun _ _ => (h _ _).trans (noRoll_keeps _)) s
  · exact raiseSlot_keeps s _
theorem meRunExt_keeps {op : TVal → State → State} (h : ∀ t s, SlotKeeps s (op t s)) (n : Need) (e : Bool) (w : Slot)
    (s : State) : Keeps s (meRunExt n op e w s) := by
  refine keeps_next ?_; split
  · exact triggerExt_keeps (fun _ _ => (h _ _).trans (noRoll_keeps _)) s
  · exact raiseSlot_keeps s _
theorem takeSeq_keeps (s : State) : SlotKeeps s s.takeSeq.2 := setCore_keeps rfl rfl
theorem queueLoad_keeps (s : State) (l : List Nat) (b : Nat) (x : Bool) (g : Tag) : SlotKeeps s (s.queueLoad l b x g) := by
  unfold State.queueLoad
  exact (takeSeq_keeps s).trans (queueAccess_keeps _ _ _)
theorem sfFire_keeps (g : Fmt → Nat → Nat × Flags) (t : TVal) (s : State) : SlotKeeps s (sfFire g t s) := by
  unfold sfFire; split
  · split
    · exact (pushResult_keeps s _ _ _ _).trans (charge_keeps _ _ _ _)
    · exact raiseSlot_keeps s _
  · exact raiseSlot_keeps s _

end Sys2Proof.Machine
end

