-- ==== Sys2Proof/Laws/MainMemory.lean ====
section
/-!
SUPPORT. Main memory's canonical form is kept by every way the device's agents write it, and the scratch's by a masked
store; what a translated write leaves of the state.
-/
namespace Sys2Proof.Machine

theorem dirtyMark_wf {m : Memory} (p : Partition) (pa : Nat) (h : m.wf = true) : (dirtyMark m p pa).wf = true := by
  unfold dirtyMark; repeat' split
  all_goals first | exact Memory.wf_write h | exact h

theorem dirtyMarks_wf {m : Memory} (p : Partition) (l : List Nat) (h : m.wf = true) :
    (l.foldl (fun m a => dirtyMark m p a) m).wf = true := by
  induction l generalizing m with
  | nil => exact h
  | cons a r ih => exact ih (dirtyMark_wf p a h)

/-- A physical write keeps the canonical form. -/
theorem physWrite_wf {s : State} (part pa : Nat) (bs : List Byte) (h : s.mem.wf = true) :
    (s.physWrite part pa bs).mem.wf = true := dirtyMarks_wf _ _ (Memory.wf_writeBytes h)

/-- A translated write of a range that does not translate ends in the address of its check. -/
theorem vwrite_error {s : State} {part die : Nat} {va e : W64} {bs : List Byte} (h : s.vcheck part die va bs.length true = some e) :
    s.vwrite part die va bs = .error e := by simp only [State.vwrite, h]

/-- A write without the dirty log changes the bytes it stores and no other. -/
theorem physWrite_mem {s : State} {part : Nat} (pa : Nat) (bs : List Byte) (h : (s.part part).dlog.en = false) :
    (s.physWrite part pa bs).mem = s.mem.writeBytes pa bs := by
  have : ∀ (l : List Nat) (m : Memory), l.foldl (fun m a => dirtyMark m (s.part part) a) m = m := by
    intro l
    induction l with
    | nil => intro m; rfl
    | cons a r ih =>
      intro m
      have e : dirtyMark m (s.part part) a = m := by simp [dirtyMark, h]
      rw [List.foldl_cons, e]
      exact ih m
  exact this _ _

/-- The states a translated write goes through change main memory alone and keep its form. -/
theorem vwrite_fold {s : State} (part die : Nat) (l : List (W64 × Nat)) :
    ∀ (a : State × List Byte), (∃ m, a.1 = { s with mem := m }) → (s.mem.wf = true → a.1.mem.wf = true) →
    let r := l.foldl (fun (a : State × List Byte) p =>
      match s.xlat part die p.1 true with
      | .ok pa _ => (a.1.physWrite part pa (a.2.take p.2), a.2.drop p.2)
      | _ => (a.1, a.2.drop p.2)) a
    (∃ m, r.1 = { s with mem := m }) ∧ (s.mem.wf = true → r.1.mem.wf = true) := by
  induction l with
  | nil => exact fun a h k => ⟨h, k⟩
  | cons p r ih =>
    intro a h k
    simp only [List.foldl_cons]
    apply ih
    · obtain ⟨m, hm⟩ := h
      split
      · exact ⟨_, by rw [hm]; rfl⟩
      · exact ⟨m, hm⟩
    · intro w
      split
      · exact physWrite_wf _ _ _ (k w)
      · exact k w

/-- A translated write changes main memory alone. -/
theorem vwrite_only {s t : State} {part die : Nat} {va : W64} {bs : List Byte} (h : s.vwrite part die va bs = .ok t) :
    t = { s with mem := t.mem } := by
  unfold State.vwrite at h
  split at h
  · cases h
  · cases h
    obtain ⟨⟨m, hm⟩, -⟩ := vwrite_fold (s := s) part die (pieces va bs.length) (s, bs) ⟨s.mem, rfl⟩ id
    exact hm.trans (congrArg (fun x : State => { s with mem := x.mem }) hm.symm)

/-- A translated write keeps the canonical form. -/
theorem vwrite_wf {s t : State} {part die : Nat} {va : W64} {bs : List Byte} (h : s.vwrite part die va bs = .ok t)
    (hs : s.mem.wf = true) : t.mem.wf = true := by
  unfold State.vwrite at h
  split at h
  · cases h
  · cases h
    exact (vwrite_fold (s := s) part die (pieces va bs.length) (s, bs) ⟨s.mem, rfl⟩ id).2 hs

/-- A masked store keeps the canonical form of the scratch. -/
theorem maskWrite_wf {m : Memory} (bs : List (Option Byte)) (a : Nat) (h : m.wf = true) : (maskWrite m a bs).wf = true := by
  induction bs generalizing m a with
  | nil => exact h
  | cons b r ih =>
    cases b with
    | none => exact ih _ h
    | some v => exact ih _ (Memory.wf_write h)

/-- A masked store leaves every byte outside its range. -/
theorem maskWrite_other {m : Memory} (bs : List (Option Byte)) (a b : Nat)
    (hb : b < a ∨ a + bs.length ≤ b) : (maskWrite m a bs).read b = m.read b := by
  induction bs generalizing m a with
  | nil => rfl
  | cons x r ih =>
    simp only [List.length_cons] at hb
    cases x with
    | none => exact ih _ (by omega)
    | some v =>
      have : b ≠ a := by omega
      rw [maskWrite, ih _ (by omega), Memory.read_write, if_neg this]

/-- Main memory after reset is in canonical form: nothing is listed. -/
theorem reset_mem : State.reset.mem = [] := rfl

end Sys2Proof.Machine
end

