-- ==== Sys2Proof/Laws/SlotOps.lean ====
section
/-!
SUPPORT. Each slot operation keeps what no slot's operation changes in its own bundle; RECW apart, which writes main memory.
-/
namespace Sys2Proof.Machine

/-- An operation behind checks keeps what it keeps without them. -/
theorem orElse_keeps {l : List (Nat × W64)} {f : State → State} {s : State} (hf : SlotKeeps s (f s)) :
    SlotKeeps s (s.orElse l f) := by
  unfold State.orElse; split
  · exact hf
  · exact frame_keeps s _ rfl

/-! ## Control -/

theorem jump_keeps (s : State) (a : W64) : SlotKeeps s (s.jump a) := by
  unfold State.jump; split
  · exact raise_keeps s _ _
  · exact frame_keeps s _ rfl
theorem link_keeps (s : State) : SlotKeeps s s.link := modRegs_keeps s _
theorem brOp_keeps (t : TVal) (s : State) : SlotKeeps s (brOp t s) := jump_keeps s _
theorem briOp_keeps (t : TVal) (s : State) : SlotKeeps s (briOp t s) := jump_keeps s _
theorem callOp_keeps (t : TVal) (s : State) : SlotKeeps s (callOp t s) := (jump_keeps s _).trans (link_keeps _)
theorem calliOp_keeps (t : TVal) (s : State) : SlotKeeps s (calliOp t s) := (jump_keeps s _).trans (link_keeps _)
theorem retOp_keeps (t : TVal) (s : State) : SlotKeeps s (retOp t s) := jump_keeps s _
theorem openLoop_keeps (s : State) (n : W32) (e : Word24) : SlotKeeps s (s.openLoop n e) := by
  simp only [State.openLoop]
  repeat' split
  all_goals first | exact raise_keeps s _ _ | exact frame_keeps s _ rfl | exact setArch_keeps s _
theorem loopOp_keeps (t : TVal) (s : State) : SlotKeeps s (loopOp t s) := carried_keeps (fun _ s => openLoop_keeps s _ _) s
theorem lexitOp_keeps (t : TVal) (s : State) : SlotKeeps s (lexitOp t s) := (setArch_keeps s _).trans (jump_keeps _ _)
theorem mpcsetOp_keeps (t : TVal) (s : State) : SlotKeeps s (mpcsetOp t s) := frame_keeps s _ rfl
theorem ntreqOp_keeps (t : TVal) (s : State) : SlotKeeps s (ntreqOp t s) :=
  (draw_keeps s).trans ((setCtx_keeps _ _).trans (modLaunchAt_keeps _ _ _))
theorem blockOn_keeps (s : State) (c : BlockCond) (n : Nat) : SlotKeeps s (s.blockOn c n) := frame_keeps s _ rfl
theorem barOp_keeps (t : TVal) (s : State) : SlotKeeps s (barOp t s) := by
  refine carried_keeps (fun _ s => ?_) s
  dsimp only; split
  · exact (blockOn_keeps s _ _).trans (noRoll_keeps _)
  · exact raise_keeps s _ _
theorem waitbmOp_keeps (t : TVal) (s : State) : SlotKeeps s (waitbmOp t s) := blockOn_keeps s _ _
theorem waitwpOp_keeps (t : TVal) (s : State) : SlotKeeps s (waitwpOp t s) := blockOn_keeps s _ _
theorem trapOp_keeps (t : TVal) (s : State) : SlotKeeps s (trapOp t s) := setArch_keeps s _
theorem eretOp_keeps (t : TVal) (s : State) : SlotKeeps s (eretOp t s) := frame_keeps s _ rfl
theorem timersetOp_keeps (t : TVal) (s : State) : SlotKeeps s (timersetOp t s) := by
  simp only [timersetOp]; split
  · exact .rfl
  · exact setCore_keeps rfl rfl
theorem haltOp_keeps (t : TVal) (s : State) : SlotKeeps s (haltOp t s) := frame_keeps s _ rfl
theorem rdschedOp_keeps (t : TVal) (s : State) : SlotKeeps s (rdschedOp t s) := modRegs_keeps s _
theorem retarget_scratch (k : Core) (n : Nat) : (k.retarget n).scratch = k.scratch ∧ (k.retarget n).larder = k.larder := by
  unfold Core.retarget; repeat' split
  all_goals exact ⟨rfl, rfl⟩
theorem endLease_keeps (s : State) (r all : Bool) : SlotKeeps s (s.endLease s.frame.cur.core r all) := by
  simp only [State.endLease]; split
  · exact .rfl
  · have h := fun (p : Power) => retarget_scratch { s.coreAt s.frame.cur.core with lease := none, pwr := p } s.pcc
    split
    · split
      · exact (setCore_keeps (s := s) (h _).1 (h _).2).trans (setPart_keeps _ _ _)
      · exact setCore_keeps (s := s) (h _).1 (h _).2
    · exact setCore_keeps (s := s) (h _).1 (h _).2
theorem leaseOp_keeps (t : TVal) (s : State) : SlotKeeps s (leaseOp t s) := by
  simp only [leaseOp]; split
  · exact raiseSlot_keeps s _
  · split
    · exact (setCtx_keeps s _).trans (noRoll_keeps _)
    · split
      · split
        · exact (endLease_keeps s _ _).trans ((modRegs_keeps _ _).trans (noRoll_keeps _))
        · exact (modRegs_keeps _ _).trans (noRoll_keeps _)
      · exact (modRegs_keeps _ _).trans (noRoll_keeps _)

/-! ## Vector and memory -/

theorem amaxFire_keeps (t : TVal) (s : State) : SlotKeeps s (amaxFire t s) := by
  simp only [amaxFire]; split
  · exact raiseSlot_keeps s _
  · exact (pushResult_keeps s _ _ _ _).trans ((charge_keeps _ _ _ _).trans (setArch_keeps _ _))
theorem queueStore_keeps (s : State) (a : Nat) (l : List (Option Byte)) (k : Nat) : SlotKeeps s (s.queueStore a l k) :=
  (queueAccess_keeps s _ _).trans (noRoll_keeps _)
theorem ldOp_keeps (b : Nat) (x : Bool) (t : TVal) (s : State) : SlotKeeps s (ldOp b x t s) := by
  unfold ldOp
  exact orElse_keeps (queueLoad_keeps s _ _ _ _)
theorem vldOp_keeps (t : TVal) (s : State) : SlotKeeps s (vldOp t s) := by
  unfold vldOp
  exact orElse_keeps (queueLoad_keeps s _ _ _ _)
theorem vldsOp_keeps (t : TVal) (s : State) : SlotKeeps s (vldsOp t s) := by
  unfold vldsOp
  exact orElse_keeps (queueLoad_keeps s _ _ _ _)
theorem stOp_keeps (b a k : Nat) (t : TVal) (s : State) : SlotKeeps s (stOp b a k t s) := by
  unfold stOp
  exact orElse_keeps (queueStore_keeps s _ _ _)
theorem vstmOp_keeps (t : TVal) (s : State) : SlotKeeps s (vstmOp t s) := by
  unfold vstmOp
  exact orElse_keeps (queueStore_keeps s _ _ _)
theorem fillOp_keeps (t : TVal) (s : State) : SlotKeeps s (fillOp t s) := by
  unfold fillOp
  exact orElse_keeps (queueStore_keeps s _ _ _)
theorem atOp_keeps (op : Nat) (t : TVal) (s : State) : SlotKeeps s (atOp op t s) := by
  unfold atOp
  exact orElse_keeps (.trans (takeSeq_keeps s) (.trans (queueAccess_keeps _ _ _) (noRoll_keeps _)))
theorem ldscOp_keeps (t : TVal) (s : State) : SlotKeeps s (ldscOp t s) := by
  unfold ldscOp
  exact orElse_keeps (.trans (setCore_keeps (by simp) (by simp)) (.trans (queueAccess_keeps _ _ _) (noRoll_keeps _)))
theorem wpsetOp_keeps (t : TVal) (s : State) : SlotKeeps s (wpsetOp t s) := by
  unfold wpsetOp
  exact orElse_keeps (.trans (queueAccess_keeps s _ _) (noRoll_keeps _))
theorem probeOp_keeps (t : TVal) (s : State) : SlotKeeps s (probeOp t s) := by
  simp only [probeOp]; split
  · exact raiseSlot_keeps s _
  · exact (takeSeq_keeps s).trans ((draw_keeps _).trans ((setCtx_keeps _ _).trans (noRoll_keeps _)))
theorem evacOp_keeps (t : TVal) (s : State) : SlotKeeps s (evacOp t s) := by
  simp only [evacOp]; split
  · exact raiseSlot_keeps s _
  · exact (takeSeq_keeps s).trans ((setCtx_keeps _ _).trans ((hold_keeps _ _).trans (noRoll_keeps _)))

/-! ## Copy engine and system -/

theorem cpyOp_keeps (t : TVal) (s : State) : SlotKeeps s (cpyOp t s) := by
  unfold cpyOp
  refine (orElse_keeps ?_).trans (charge_keeps _ _ _ _)
  exact setCore_keeps rfl rfl
theorem cbclrOp_keeps (t : TVal) (s : State) : SlotKeeps s (cbclrOp t s) := setCtx_keeps s _
theorem shapeOp_keeps (t : TVal) (s : State) : SlotKeeps s (shapeOp t s) := by
  unfold shapeOp
  exact orElse_keeps (queueAccess_keeps s _ _)
theorem dctOp_keeps (t : TVal) (s : State) : SlotKeeps s (dctOp t s) := by
  unfold dctOp
  refine (orElse_keeps ?_).trans (charge_keeps _ _ _ _)
  exact setCore_keeps rfl rfl
theorem cpysOp_keeps (t : TVal) (s : State) : SlotKeeps s (cpysOp t s) := by
  unfold cpysOp
  exact orElse_keeps (setCore_keeps rfl rfl)
theorem wpclrOp_keeps (t : TVal) (s : State) : SlotKeeps s (wpclrOp t s) := by
  unfold wpclrOp
  exact orElse_keeps (setCore_keeps rfl rfl)
theorem xferOp_keeps (t : TVal) (s : State) : SlotKeeps s (xferOp t s) := by
  unfold xferOp
  exact orElse_keeps (setCtx_keeps s _)
theorem catomOp_keeps (t : TVal) (s : State) : SlotKeeps s (catomOp t s) := by
  unfold catomOp
  exact orElse_keeps (.trans (draw_keeps s) (setCore_keeps rfl rfl))
theorem signalOp_keeps (t : TVal) (s : State) : SlotKeeps s (signalOp t s) := (queueAccess_keeps s _ _).trans (noRoll_keeps _)
theorem gmarkOp_keeps (t : TVal) (s : State) : SlotKeeps s (gmarkOp t s) := (trace_keeps s _ _).trans (noRoll_keeps _)

/-! ## Engines -/

theorem mcfgOp_keeps (e : Bool) (t : TVal) (s : State) : SlotKeeps s (mcfgOp e t s) := by
  simp only [mcfgOp]; repeat' split
  all_goals first | exact orElse_keeps .rfl | exact setEng_keeps s _ _
theorem mdrainOp_keeps (e : Bool) (t : TVal) (s : State) : SlotKeeps s (mdrainOp e t s) := by
  unfold mdrainOp
  exact orElse_keeps (frame_keeps s _ rfl)
theorem claimOp_keeps (e : Bool) (t : TVal) (s : State) : SlotKeeps s (claimOp e t s) := by
  unfold claimOp
  refine orElse_keeps ?_
  dsimp only; split
  · exact setCore_keeps rfl rfl
  · exact setCore_keeps rfl rfl
theorem releaseOp_keeps (e : Bool) (t : TVal) (s : State) : SlotKeeps s (releaseOp e t s) := by
  unfold releaseOp
  exact orElse_keeps (setCore_keeps rfl rfl)
theorem mputOp_keeps (e : Bool) (t : TVal) (s : State) : SlotKeeps s (mputOp e t s) := by
  unfold mputOp
  exact orElse_keeps (queueAccess_keeps s _ _)
theorem mlgetOp_keeps (e : Bool) (t : TVal) (s : State) : SlotKeeps s (mlgetOp e t s) := by
  unfold mlgetOp
  exact orElse_keeps ((rows_keeps s _).trans ((pushResult_keeps _ _ _ _ _).trans (charge_keeps _ _ _ _)))
theorem mzeroOp_keeps (e : Bool) (t : TVal) (s : State) : SlotKeeps s (mzeroOp e t s) := by
  unfold mzeroOp
  exact orElse_keeps (setCtx_keeps s _)
theorem mgetOp_keeps (e : Bool) (t : TVal) (s : State) : SlotKeeps s (mgetOp e t s) := by
  simp only [mgetOp]; split
  · refine .trans (frame_keeps s _ ?_) (orElse_keeps ?_)
    · rfl
    · exact .trans (rows_keeps _ _) (pushResult_keeps _ _ _ _ _)
  · exact orElse_keeps ((rows_keeps s _).trans (pushResult_keeps _ _ _ _ _))
theorem mcallOp_keeps (e : Bool) (t : TVal) (s : State) : SlotKeeps s (mcallOp e t s) := by
  unfold mcallOp
  refine carried_keeps (fun _ s => ?_) s
  dsimp only; split
  · exact raise_keeps s _ _
  · exact setEng_keeps s _ _
theorem mpswOp_keeps (e : Bool) (t : TVal) (s : State) : SlotKeeps s (mpswOp e t s) := by
  unfold mpswOp
  refine orElse_keeps ?_
  dsimp only; split <;> exact setEng_keeps s _ _
theorem bindOp_keeps (b : Bool) (t : TVal) (s : State) : SlotKeeps s (bindOp b t s) := by
  unfold bindOp
  exact orElse_keeps (frame_keeps s _ rfl)

end Sys2Proof.Machine
end

