-- ==== Sys2Proof/Tests/Slice0.lean ====
section
/-!
SUPPORT. The model's own tests: ill-formed terms that the checks refuse, words written out from the spec's encodings, one
step on small states, and for every obligation with hypotheses a state that meets them.
-/
namespace Sys2Proof.Machine

set_option Elab.async false

/-! ## Well-formedness: an ill-formed term for each check, which the check refuses -/

/-- A slot that always executes and reads the immediate 0. -/
def w0 : Slot := { gd := { n := false, g := 0 }, src := 0x1E0 }

theorem test_wf_move_p15 : (Instr.move w0 0x7F).wf = false := by decide
theorem test_wf_move_hole : (Instr.move w0 0x9E).wf = false := by decide
theorem test_wf_move_ok : (Instr.move w0 9).wf = true := by decide
theorem test_wf_pnz : (Instr.pnz w0 0).wf = false ∧ (Instr.pnz w0 15).wf = false ∧ (Instr.pnz w0 14).wf = true := by decide
theorem test_wf_mblk : (Instr.mblk 6).wf = false ∧ (Instr.mblk 5).wf = true := by decide +kernel
theorem test_wf_test_row : (Instr.inFieldTest (.pool 12800) false).wf = false ∧ (Instr.inFieldTest (.larder 2048) false).wf = false := by
  decide +kernel
theorem test_wf_patrol_row : (Instr.patrolRead (.pool 12800) 0).wf = false := by decide +kernel
theorem test_wf_boundary : (Instr.flitReplay 3).wf = false ∧ (Instr.linkFailure 3).wf = false ∧ (Instr.linkTrainingEnd 3 true).wf = false := by
  decide +kernel
theorem test_wf_network_data : (Instr.networkWorkRequest { qp := 1, op := .write, va := 0, len := 2, inbound := true, data := [1] }).wf = false := by
  decide +kernel
theorem test_wf_network_pair : (Instr.networkWorkRequest { qp := 8192, op := .send, va := 0, len := 2, inbound := false, data := [] }).wf = false := by
  decide +kernel
theorem test_wf_network_atomic : (Instr.networkWorkRequest { qp := 1, op := .fetchAdd 1, va := 0, len := 4, inbound := true, data := [] }).wf = false := by
  decide +kernel
theorem test_wf_storage_data : (Instr.storageDma { rid := 1, va := 0, len := 2, write := false, data := [1] }).wf = false := by
  decide +kernel
theorem test_wf_host : (Instr.hostFunctionAccess { vf := 1, bar0 := true, write := false, off := 65535, len := 2, data := [] }).wf = false ∧
    (Instr.hostFunctionAccess { vf := 49, bar0 := false, write := false, off := 0, len := 2, data := [] }).wf = false := by
  decide +kernel
theorem test_wf_weight : (Instr.registerWrite (.weight 0 14) 0).wf = false := by decide +kernel

/-! ## Words of the spec's encodings -/

/-- R68: HDR of chapter 3's worked header, F = 0: PM = 0x13, two long immediates. -/
theorem test_header : (decodeHeader 0x020013).pm = 0x13 ∧ (decodeHeader 0x020013).imm = 2 ∧ (decodeHeader 0x020013).f = false ∧
    Header.toWord (decodeHeader 0x020013) = 0x020013 := by decide
/-- R69, R76, R78: a move of s4 to s5, and of SA0.q to s9. -/
theorem test_word_move : decodeSlot .c0 0x00100A = some (.move ⟨⟨false, 0⟩, 4⟩ 5) ∧
    decodeSlot .c0 0x024012 = some (.move ⟨⟨false, 0⟩, 0x90⟩ 9) := by decide +kernel
/-- R78: HALT, and RECW with s27 as its source. -/
theorem test_word_ctl : decodeSlot .c0 0x078244 = some (.halt ⟨false, 0⟩) ∧
    decodeSlot .c0 0x026E40 = some (.recw ⟨⟨false, 0⟩, 0x9B⟩) := by decide +kernel
/-- R72, R78: the extended MULLO and ADD. -/
theorem test_word_ext : decodeSlot .c0 0x078F30 = some (.mulloExt ⟨⟨false, 0⟩, 0x1E3⟩) ∧
    decodeSlot .c0 0x0006F0 = some (.addExt ⟨⟨false, 0⟩, 1⟩) := by decide +kernel
/-- R78: the same ID in another class names another trigger. -/
theorem test_word_class : decodeSlot .c4 0x07C228 = some (.ldW ⟨⟨false, 0⟩, 0x1F0⟩) ∧
    decodeSlot .c0 0x07C228 = some (.ret ⟨false, 0⟩) := by decide +kernel
/-- R69: a word with bit 0 set decodes to nothing. -/
theorem test_word_reserved : decodeSlot .c0 0x00100B = none := by decide +kernel
/-- R78: a destination that no slot of the class has. -/
theorem test_word_hole : decodeSlot .c0 0x000360 = none := by decide +kernel
/-- R69: the guard's fields: N = 1 and G = 2. -/
theorem test_word_guard : decodeSlot .c0 0x90100A = some (.move ⟨⟨true, 2⟩, 4⟩ 5) := by decide +kernel
/-- R99: the rounding mode is the trigger's low bits. -/
theorem test_word_rounding : decodeSlot .c2 0x014222 = some (.vfadd ⟨⟨false, 0⟩, 0x50⟩ .rtz) := by decide +kernel
/-- R206: MSELA mp0, MSELB mp1, MACC q0, MSETX, MMAC with D_L = mx1. -/
theorem test_word_micro : decodeMicro 0x10000000 = some (.msela 0) ∧ decodeMicro 0x20000001 = some (.mselb 1) ∧
    decodeMicro 0x90000020 = some (.macc 0 0 true) ∧ decodeMicro 0x40020001 = some (.msetx 1 0x20) ∧
    decodeMicro 0xA0000800 = some (.mmac 0 0 0 0 1) := by decide +kernel
/-- R206: a micro-operation with a reserved bit set decodes to nothing. -/
theorem test_word_micro_reserved : decodeMicro 0x10000008 = none ∧ decodeMicro 0xF0000001 = none := by decide +kernel
/-- The table's words: MCALL is read where no earlier class has its ID, and the first step after reset runs it. -/
theorem test_table_word : decodeTableWord 32 0xF0000000 = some .mnop ∧ decodeTableWord 24 0x00100B = none := by decide +kernel
theorem test_fetch_word : (State.reset.withFetchWord 24 0x078244).todo = [.exec { slot := 0, ctx := 0 } (.halt ⟨false, 0⟩)] := by
  decide +kernel
/-- R63, R64: a packet of one bundle of a header and one slot word. -/
theorem test_packet : Packet.wf (Packet.make 0x003 [0x000001, 0x00100A, 0x000000]) = false ∧
    Packet.wf (Packet.make 0x005 [0x000001, 0x00100A, 0x000000]) = true := by decide +kernel

/-! ## Small states -/

/-- A pool partition word of 64 KiB of scratch and one tile for a context. -/
def ppw0 : W32 := 0x100800
/-- A launch of one user context on core 0 of partition 1. -/
def launch0 : Launch := { tag := 9, part := 1, status := .placed, cores := [0], lives := [0] }
/-- A context of a state that is ready. -/
def ctx0 (a : CtxArch) : Ctx := { cur := a, start := a, status := .ready }
/-- Core 0 with one context, held by the launch. -/
def core0 (c : Nat) (x : Ctx) : Core := { ctxs := [(c, x)], launch := some (1, 9), rows := { ppw := ppw0 } }
/-- A frame at a slot of a context of core 0, in a bundle that ends its phase at a safe point with a waiting flip. -/
def frame0 (c slot : Nat) (rest : List Word24) : Frame :=
  { cur := { part := 1, slot := slot, ctx := c }, li := rest, rest := rest,
    hdr := { rsv := 0, imm := 2, ops := 0, c := false, e := false, s := true, w := true, f := true, pm := 0 } }
/-- A state of one core and one context, at a slot. -/
def st0 (c slot : Nat) (a : CtxArch) (rest : List Word24 := []) : State :=
  { State.reset with cores := [(0, core0 c (ctx0 a))], launches := [launch0], parts := [(1, {})], frame := frame0 c slot rest }

/-- An extension word that moves a0 to x and a1 to y. -/
def e0 : Word24 := 0x008240
/-- One that moves s0 to x and s1 to y. -/
def e4 : Word24 := 0x000200
/-- A value of 256 bytes with a tag. -/
def tv (n : Nat) (t : Tag) : TVal := { val := BitVec.ofNat 2048 n, tag := t }
/-- Operand ports of a slot. -/
def ports (slot : Nat) (x y k : TVal) : SMap TVal := [(512 * slot + 0x100, x), (512 * slot + 0x101, y), (512 * slot + 0x102, k)]

/-! ## One step of the scalar, address, predicate and move operations -/

/-- The pipeline's last value after an instruction's step. -/
def lastOf (o : Host.Outcome State Fault Refusal) : Option (Nat × W64 × W2048 × W32) :=
  match o with
  | .next t => t.arch.pipe.getLast?.map fun r => (r.port, r.due, r.res.val, r.flags)
  | _ => none
/-- A scalar state: x, y in slot 1, the source in s4. -/
def sc (x y c : W32) : State :=
  st0 0 1 { sclk := 7, opnd := [(0x300, plain x.toNat), (0x301, plain y.toNat)], regs := { s := [(4, { vis := c, hid := 0 })] } }
def w4 : Slot := { gd := { n := false, g := 0 }, src := 4 }
/-- The result of a scalar trigger of slot 1. -/
def scOf (i : Instr) (x y c : W32) : Option (Nat × W64 × W2048 × W32) := lastOf (exec i (sc x y c))

/-- R115: values worked from its table: a wrap, a clamp, a sign, a carry. -/
theorem test_add_wraps : scOf (.add w4) 0xFFFFFFFF 0 2 = some (0x91, 8, 1, 0) := by decide +kernel
theorem test_sub_wraps : scOf (.sub w4) 1 0 2 = some (0x91, 8, 0xFFFFFFFF, 0) := by decide +kernel
theorem test_addS_clamps : scOf (.addS w4) 0x7FFFFFFF 0 1 = some (0x91, 8, 0x7FFFFFFF, Flags.sat) := by decide +kernel
theorem test_subS_clamps : scOf (.subS w4) 0x80000000 0 1 = some (0x91, 8, 0x80000000, Flags.sat) := by decide +kernel
theorem test_sar_sign : scOf (.sar w4) 0x80000000 0 0x3F = some (0x91, 8, 0xFFFFFFFF, 0) := by decide +kernel
theorem test_ror : scOf (.ror w4) 0x00000001 0 4 = some (0x91, 8, 0x10000000, 0) := by decide +kernel
theorem test_cmplt_signed : scOf (.cmplt w4) 0x80000000 0 1 = some (0x91, 8, 1, 0) := by decide +kernel
theorem test_cmpltu_unsigned : scOf (.cmpltu w4) 0x80000000 0 1 = some (0x91, 8, 0, 0) := by decide +kernel
theorem test_sel : scOf (.sel w4) 5 6 2 = some (0x91, 8, 6, 0) := by decide +kernel
theorem test_exts_field : scOf (.exts w4) 0xF0 0 0x64 = some (0x91, 8, 0xFFFFFFFF, 0) := by decide +kernel
theorem test_ins_field : scOf (.ins w4) 0xFFFFFFFF 0 0x64 = some (0x91, 8, 0xFFFFFF0F, 0) := by decide +kernel
theorem test_clz_zero : scOf (.clz w4) 0 0 0 = some (0x91, 8, 32, 0) := by decide +kernel
theorem test_carry : scOf (.carry w4) 0xFFFFFFFF 0 1 = some (0x91, 8, 1, 0) := by decide +kernel
theorem test_borrow : scOf (.borrow w4) 0 0 1 = some (0x91, 8, 1, 0) := by decide +kernel
theorem test_mulhi_sign : scOf (.mulhi w4) 0xFFFFFFFF 0 1 = some (0x91, 10, 0xFFFFFFFF, 0) := by decide +kernel
theorem test_mulhiu : scOf (.mulhiu w4) 0xFFFFFFFF 0 2 = some (0x91, 10, 1, 0) := by decide +kernel
/-- R117: AIDX shifts the signed low word by y[3:0]; ACIRC wraps in its ring. -/
theorem test_aidx : lastOf (exec (.aidx { w4 with src := 0x1DF }) (st0 0 1 { opnd := [(0x102, plain 100), (0x103, plain 3)] })) =
    some (0x92, 1, 92, 0) := by decide +kernel
theorem test_acirc_wraps : lastOf (exec (.acirc { w4 with src := 0x1DF }) (st0 0 1 { opnd := [(0x102, plain 0), (0x103, plain 8)] })) =
    some (0x92, 1, 7, 0) := by decide +kernel

/-- A register face after a step. -/
def faceOf {α : Type} (f : RegFile → α) (o : Host.Outcome State Fault Refusal) : Option α :=
  match o with
  | .next t => some (f t.arch.regs)
  | _ => none
/-- R118: PNZ p3 of a non-zero source. -/
theorem test_pnz : faceOf (fun r => r.getP 3) (exec (.pnz w4 3) (sc 0 0 8)) = some { vis := false, hid := true, wr := true } := by
  decide +kernel
/-- R16, R44: the second write of a register in a phase raises DW and the last value stays. -/
theorem test_move_twice : faceOf (fun r => (r.getS 5, r.flg.acc)) (exec (.move w4 5) (st0 0 0 { regs :=
      { s := [(4, { vis := 6, hid := 0 }), (5, { vis := 1, hid := 2, wr := true })] } })) =
    some ({ vis := 1, hid := 6, wr := true }, Flags.dw) := by decide +kernel
/-- R12: a move to p0 writes nothing. -/
theorem test_move_p0 : faceOf (fun r => r.getP 0) (exec (.move w0 0x70) (st0 0 0 {})) = some { vis := true, hid := true } := by
  decide +kernel
/-- R15: an am register takes the magnitude, infinity for a NaN. -/
theorem test_move_am : faceOf (fun r => (r.getAm 1).hid) (exec (.move w4 0x8D) (st0 0 2 { regs :=
      { s := [(4, { vis := 0xFFC00000, hid := 0 })] } })) = some 0x7F800000 := by decide +kernel
/-- R69: a slot whose guard is false does nothing. -/
theorem test_guard_false : faceOf (fun r => (r.getS 5).wr) (exec (.move { w4 with gd := { n := true, g := 0 } } 5) (st0 0 0 {})) =
    some false := by decide +kernel

/-! ## Witnesses: scalar, address, predicate, move, control -/

/-- Every slot that executes and its extended form, at slot s of a context. -/
def runsAt (c slot : Nat) (a : CtxArch) : State := st0 c slot a [e0]

theorem wit_scalar : Runs w0 (runsAt 0 1 {}) ∧ RunsExt w0 e0 [] (runsAt 0 1 {}) := by
  unfold Runs RunsExt; decide +kernel
theorem wit_pnz : (3 : BitVec 4) ≠ 0 ∧ (3 : BitVec 4) ≠ 15 ∧ ((runsAt 4 0 {}).inHandler = true → (3 : BitVec 4).toNat < 4) ∧
    Runs w0 (runsAt 4 0 {}) ∧ Runs w0 (runsAt 0 0 {}) := by unfold Runs; decide +kernel
theorem wit_pnz_handler : (runsAt 4 0 {}).inHandler = true ∧ 4 ≤ (4 : BitVec 4).toNat := by decide +kernel
/-- Each destination of a move at the ends of its range, with a slot and context that may write it. -/
theorem wit_moves : ∀ x ∈ ([(0, 0, 0), (0, 0, 0x3F), (0, 0, 0x40), (0, 0, 0x4F), (0, 2, 0x50), (0, 4, 0x6F), (0, 0, 0x70), (0, 0, 0x71),
      (0, 0, 0x7E), (0, 2, 0x80), (0, 2, 0x87), (0, 0, 0x88), (0, 0, 0x8B), (0, 2, 0x8C), (0, 3, 0x8F), (0, 0, 0x9D), (4, 0, 0x106),
      (0, 0, 0x100), (0, 0, 0x105), (0, 6, 0x1B0), (0, 6, 0x1BF)] : List (Nat × Nat × BitVec 9)),
    Moves w0 x.2.2 (runsAt x.1 x.2.1 {}) := by
  unfold Moves Runs; decide +kernel
theorem wit_move_refused : (runsAt 0 1 {}).guard w0.gd = true ∧
    ((runsAt 0 1 {}).srcOk w0.src && dstLegal (runsAt 0 1 {}).inHandler (runsAt 0 1 {}).arch.bind 1 0x70) = false := by
  decide +kernel
/-- A control state: what each control trigger needs of its context and header. -/
def ctl (c : Nat) : State := runsAt c 0 {}
theorem wit_transfers : ∀ r ∈ transferRows, Runs w0 (ctl 0) ∧ r.2 (ctl 0) ∧ RunsExt w0 e0 [] (ctl 0) ∧ r.2 (armed e0 [] 0x104 0x105 (ctl 0)) := by
  simp only [transferRows, List.forall_mem_cons, List.not_mem_nil, false_implies, implies_true, and_true]
  unfold Runs RunsExt; decide +kernel
/-- The same with a carried word behind the extension word. -/
def ctl2 (c : Nat) : State := st0 c 0 {} [e4, 0x10]
theorem wit_control : ∀ r ∈ ctlRows, ∃ c, Runs w0 (ctl2 c) ∧ r.2 (ctl2 c) ∧ RunsExt w0 e4 [0x10] (ctl2 c) ∧
    r.2 (armed e4 [0x10] 0x104 0x105 (ctl2 c)) := by
  simp only [ctlRows, List.forall_mem_cons, List.not_mem_nil, false_implies, implies_true, and_true]
  refine ⟨⟨0, ?_⟩, ⟨0, ?_⟩, ⟨0, ?_⟩, ⟨0, ?_⟩, ⟨0, ?_⟩, ⟨0, ?_⟩, ⟨0, ?_⟩, ⟨4, ?_⟩, ⟨4, ?_⟩, ⟨4, ?_⟩, ⟨0, ?_⟩⟩ <;>
    (unfold Runs RunsExt; try unfold blockOk) <;> decide +kernel
theorem wit_ntreq : Runs w0 (ctl 0) ∧ (ctl 0).inHandler = false ∧ RunsExt w0 e0 [] (ctl 0) ∧
    (armed e0 [] 0x104 0x105 (ctl 0)).inHandler = false := by unfold Runs RunsExt; decide +kernel

/-! ## Vector operations -/

/-- A slot that reads v1, and an extension word that moves v0 to x and to y. -/
def wv : Slot := { gd := { n := false, g := 0 }, src := 0x51 }
def ev : Word24 := 0x00A050
/-- A state at slot 2 with v0 of a tag, moved to x and y as well, and v1 of another; k active everywhere. -/
def vec (n : Nat) (tx : Tag) (m : Nat) (tt : Tag) : State :=
  st0 0 2 { sclk := 7, opnd := ports 2 (tv n tx) (tv n tx) (tv (2 ^ 256 - 1) 0),
            regs := { v := [(0, { vis := tv n tx, hid := {} }), (1, { vis := tv m tt, hid := {} })] } } [ev]
/-- The result of a vector trigger. -/
def vecOfRun (i : Instr) (n : Nat) (tx : Tag) (m : Nat) (tt : Tag) : Option (Nat × W64 × W2048 × W32) := lastOf (exec i (vec n tx m tt))

/-- R140: INT8 lanes wrap each on its own; the clamp raises SAT. -/
theorem test_vadd_lanes : vecOfRun (.vadd wv) 0x00FF 10 0x0101 10 = some (0x93, 9, 0x0100, 0) := by decide +kernel
theorem test_vaddS_clamps : vecOfRun (.vaddS wv) 0x7F 10 0x01 10 = some (0x93, 9, 0x7F, Flags.sat) := by decide +kernel
theorem test_vsar_sign : (vecOfRun (.vsar wv) 0x80 10 1 10).map (·.2.2.1) = some 0xC0 := by decide +kernel
theorem test_vcmplt_mask : (vecOfRun (.vcmplt wv) 0xFFFF 9 0 9).map (·.2.2.1) = some 3 := by decide +kernel
/-- R143, R104: 1.0 + 1.0 in FP32, and an overflow to infinity in BF16. -/
theorem test_vfadd : (vecOfRun (.vfadd wv .rne) 0x3F800000 1 0x3F800000 1).map (·.2.2.1) = some 0x40000000 := by decide +kernel
theorem test_vfmul_overflow : (vecOfRun (.vfmul wv .rne) 0x7F7F 2 0x7F7F 2).map (·.2.2.1) = some 0x7F80 := by decide +kernel
/-- R144: VROT by one takes element 1 to element 0. -/
theorem test_vrot : (vecOfRun (.vrot wv) 0x0200 10 1 8).map (·.2.2.1) = some 0x02 := by decide +kernel
/-- R146: the sum of the active elements. -/
theorem test_vradd : (vecOfRun (.vradd wv) 0xFFFF02 10 0 0).map (·.2.2.1) = some 0 := by decide +kernel
/-- R147: four products added to an accumulator. -/
theorem test_vdot4 : (vecOfRun (.vdot4S wv) 0xFF020304 10 5 8).map (·.2.2.1) = some 35 := by decide +kernel
/-- R149: INT32 2 to FP32 2.0. -/
theorem test_cvt : (vecOfRun (.cvt wv) 2 8 0x81 8).map (fun r => r.2.2.1.setWidth 32) = some 0x40000000 := by decide +kernel
/-- R98: mixed tags are a mismatch of the slot. -/
theorem test_vadd_tags : (match exec (.vadd wv) (vec 1 8 1 9) with
    | .next t => t.frame.raised | _ => []) = [(8, 2)] := by decide +kernel

/-! ## Witnesses: vector and special functions -/

/-- The inputs of both forms at a state. -/
def vecIn (s : State) : VIn := s.vaIn (s.srcVal wv.src)
def vecInExt (s : State) : VIn := (armed ev [] 0x100 0x101 s).vaIn (s.srcVal wv.src)
/-- A vector slot and its extended form execute, with inputs that meet a condition. -/
def VecMeets (s : State) (ok : VIn → Prop) : Prop := Runs wv s ∧ RunsExt wv ev [] s ∧ ok (vecIn s) ∧ ok (vecInExt s)

theorem wit_vector_integer : VecMeets (vec 3 10 4 10) fun v => isInt v.x.tag ∧ v.t.tag = v.x.tag := by
  unfold VecMeets Runs RunsExt isInt; decide +kernel
theorem wit_vector_floating : VecMeets (vec 3 2 4 2) fun v => isFlt v.x.tag ∧ v.t.tag = v.x.tag ∧ v.y.tag = v.x.tag := by
  unfold VecMeets Runs RunsExt isFlt; decide +kernel
theorem wit_vector_lane : VecMeets (vec 3 9 0x81 9) fun v => tagWidth v.x.tag ≠ 4 ∧ v.t.val.toNat % 16 < 0xD ∧ (v.t.tag = 9 ∨ v.t.tag = 10) := by
  unfold VecMeets Runs RunsExt; decide +kernel
theorem wit_vector_dot : VecMeets (vec 3 10 4 8) fun v => v.x.tag = 10 ∧ v.y.tag = 10 ∧ v.t.tag = 8 := by
  unfold VecMeets Runs RunsExt; decide +kernel
theorem wit_vector_mix : VecMeets (vec 3 8 4 8) fun v => v.x.tag = 8 ∧ v.t.tag = 8 := by
  unfold VecMeets Runs RunsExt; decide +kernel
theorem wit_vector_convert : VecMeets (vec 3 8 0x81 8) (fun v => (cvtCtl v.x v.t).isSome) ∧ (vec 3 8 0x81 8).inHandler = false ∧
    cvtCtl ((vec 3 8 0x81 8).opnd 0x100) ((vec 3 8 0x81 8).srcVal wv.src) = some ⟨0, 0, false, .rne, 8, 1⟩ := by
  unfold VecMeets Runs RunsExt; decide +kernel
/-- An INT32 x beside an FP32 t: no tags that any of the two-operand operations, the floating reductions, the unpacks or a
conversion accept; an FP4 x; a floating pair beside the integer operations; a reserved tag for VTAG. -/
theorem wit_vector_mismatch : VecMeets (vec 3 8 0 1) (fun v => ¬(isInt v.x.tag ∧ v.t.tag = v.x.tag) ∧
      ¬(isFlt v.x.tag ∧ v.t.tag = v.x.tag) ∧ ¬isFlt v.x.tag ∧ ¬isInt v.t.tag ∧ ¬(v.t.tag = 9 ∨ v.t.tag = 10) ∧
      ¬(v.x.tag = 10 ∧ v.y.tag = 10 ∧ v.t.tag = 8) ∧ ¬(v.x.tag = 8 ∧ v.t.tag = 8) ∧ cvtCtl v.x v.t = none) ∧
    (vec 3 8 0 1).inHandler = false ∧ VecMeets (vec 3 6 13 1) (fun v => tagWidth v.x.tag = 4 ∧ ¬isInt v.x.tag ∧ 0xD ≤ v.t.val.toNat % 16) := by
  unfold VecMeets Runs RunsExt isInt isFlt; dsimp only; and_intros <;> decide +kernel
theorem wit_special : Runs wv (vec 3 8 4 1) ∧ isFlt ((vec 3 8 4 1).srcVal wv.src).tag ∧ fmtOf 1 = some fp32 ∧
    Runs wv (vec 3 8 4 8) ∧ ¬isFlt ((vec 3 8 4 8).srcVal wv.src).tag := by
  unfold Runs isFlt; decide +kernel
/-- Finite values, infinities, a NaN, an infinite product, and an order of two values, in FP32. -/
theorem wit_rounding : fp32 ∈ wideFmts ∧ fp32.value 0x3F800000 = .fin ⟨false, 8388608, -23⟩ ∧ fp32.value 0x7F800000 = .inf false ∧
    fp32.value 0xFF800000 = .inf true ∧ fp32.value 0x7FC00000 = .nan ∧ fp32.value 0x80000000 = .fin ⟨true, 0, -149⟩ ∧
    Fv.mul (fp32.value 0x7F800000) (fp32.value 0x3F800000) = (.inf false, 0) ∧
    (fp32.int 1, fp32.int 0x80000002) = (some 1, some (-2)) := by decide +kernel
/-- R99, R102: 1 plus half a unit in the last place rounds to even and, upward, to the next value; 1 plus the least subnormal is
inexact; the largest value doubled overflows as its mode says. -/
theorem test_rounding : fAdd fp32 .rne 0x3F800000 0x33800000 = (0x3F800000, Flags.nx) ∧
    fAdd fp32 .rup 0x3F800000 0x33800000 = (0x3F800001, Flags.nx) ∧ fAdd fp32 .rtz 0x3F800000 1 = (0x3F800000, Flags.nx) ∧
    fAdd fp32 .rtz 0x7F7FFFFF 0x7F7FFFFF = (0x7F7FFFFF, Flags.of ||| Flags.nx) ∧
    fAdd fp32 .rne 0x7F7FFFFF 0x7F7FFFFF = (0x7F800000, Flags.of ||| Flags.nx) := by decide +kernel
/-- R152: 1/4, its square root and its reciprocal; 2 to the power 3; the logarithm of 8. -/
theorem test_special : (sfRcp fp32 0x3E800000, sfSqrt fp32 0x3E800000) = ((0x40800000, 0), (0x3F000000, 0)) ∧
    sfExp2 fp32 0x40400000 = (0x41000000, 0) ∧ sfLog2 fp32 0x41000000 = (0x40400000, 0) := by decide +kernel
/-- A negative value; an operand with a result in range, one with none in range, and one of BF16 whose logarithm, of magnitude about
0.977, has no code within 2^-10. -/
theorem wit_bounds : fp32.int 0xBF800000 = some (-(2 ^ 149)) ∧ fp32.int 0x40400000 = some (3 * 2 ^ 149) ∧
    (fp32.round .rne (SfFn.exp2.approx ⟨false, 1, -1⟩)).2 &&& Flags.of = 0 ∧ (fp32.round .rne (SfFn.exp2.approx ⟨false, 1, 8⟩)).2 &&& Flags.of ≠ 0 ∧
    bf16.value 0x3F02 = .fin ⟨false, 130, -8⟩ ∧ (bf16.round .rne (SfFn.log2.approx ⟨false, 130, -8⟩)).1 = 0xBF7A := by decide +kernel

/-! ## Memory operations -/

/-- A state at slot 4: x holds tag 1 and a stride of 8 in its high word, y holds 8, k is full; a0 and a1 hold the same. -/
def ls (x y : Nat) : State :=
  st0 0 4 { sclk := 7, opnd := ports 4 (tv x 7) (tv y 0) (tv (2 ^ 256 - 1) 0),
            regs := { a := [(0, { vis := BitVec.ofNat 64 x, hid := 0 }), (1, { vis := BitVec.ofNat 64 y, hid := 0 })],
                      v := [(0, { vis := tv x 7, hid := {} })] } } [e0]
/-- x of a strided load: stride 8, tag FP32. -/
def xs : Nat := 8 * 2 ^ 32 + 1

/-- A slot at slot 4 and its extended form execute, with operands that meet a condition. -/
def LsMeets (s : State) (ok : TVal → State → Prop) : Prop :=
  Runs w0 s ∧ ok (s.srcVal w0.src) s ∧ RunsExt w0 e0 [] s ∧ ok (s.srcVal w0.src) (armed e0 [] 0x100 0x101 s)

theorem wit_record : Runs w0 (st0 4 0 {} [e4]) ∧ RunsExt w0 e4 [] (st0 4 0 {} [e4]) ∧ (st0 4 0 {} [e4]).inHandler = true := by
  unfold Runs RunsExt; decide +kernel
/-- LEASE with a request of one cycle for p1; and a return. -/
def lease (c : W32) : State :=
  st0 0 0 { opnd := [(0x104, plain 1)], regs := { s := [(4, { vis := c, hid := 0 }), (0, { vis := 1, hid := 0 })] } } [e4]
theorem wit_lease : Runs w4 (lease 0x11) ∧ Runs w4 (lease 0x10) ∧ (lease 0x11).inHandler = false ∧ (lease 0x10).inHandler = false ∧
    asks (lease 0x11) ∧ leaseOk ((lease 0x11).srcVal 4) (lease 0x11) ∧ leaseOk ((lease 0x10).srcVal 4) (lease 0x10) := by
  unfold Runs asks leaseOk; dsimp only; decide +kernel
theorem wit_lease_ext : RunsExt w4 e4 [] (lease 0x11) ∧ leaseOk ((lease 0x11).srcVal 4) (armed e4 [] 0x104 0x105 (lease 0x11)) := by
  unfold RunsExt leaseOk; dsimp only; decide +kernel
theorem wit_loads : ∀ r ∈ loadRows, LsMeets (ls xs 8) r.2 := by
  simp only [loadRows, List.forall_mem_cons, List.not_mem_nil, false_implies, implies_true, and_true]
  unfold LsMeets Runs RunsExt inScratch; dsimp only; and_intros <;> decide +kernel
theorem wit_stores : ∀ r ∈ storeRows, LsMeets (ls xs 8) r.2 := by
  simp only [storeRows, List.forall_mem_cons, List.not_mem_nil, false_implies, implies_true, and_true]
  unfold LsMeets Runs RunsExt inScratch; dsimp only; and_intros <;> decide +kernel
theorem wit_atomics : LsMeets (ls xs 8) fun t s => inScratch s (at_ t) 4 4 := by
  unfold LsMeets Runs RunsExt inScratch; decide +kernel
/-- A state whose context holds engine 0. -/
def held (s : State) : State := s.setCore { s.core with me0 := { holder := 0 } }
/-- An extension word that moves v0 to x. -/
def ex : Word24 := 0x008250
theorem wit_ldsc : Runs w0 (held (ls xs 8)) ∧ ldscOk ((held (ls xs 8)).srcVal w0.src) (held (ls xs 8)) := by
  unfold Runs ldscOk; decide +kernel
theorem wit_ldsc_ext : (let s := held { ls xs 8 with frame := frame0 0 4 [ex] }
    RunsExt w0 ex [] s ∧ ldscOk (s.srcVal w0.src) (armed ex [] 0x100 0x101 s)) := by
  unfold RunsExt ldscOk; decide +kernel
theorem wit_wpset : LsMeets (ls xs 8) wpsetOk := by unfold LsMeets Runs RunsExt wpsetOk inScratch; decide +kernel
/-- An address past the scratch and off its alignment, in s4. -/
def far (v : W32) : State := st0 0 4 { regs := { s := [(4, { vis := v, hid := 0 })] } }
theorem wit_scratch_errors : Runs w4 (far 0x10000) ∧ ¬inScratch (far 0x10000) (at_ ((far 0x10000).srcVal 4)) 1 1 ∧
    ¬inScratch (far 2) (at_ ((far 2).srcVal 4)) 4 4 := by unfold Runs inScratch; decide +kernel
theorem wit_probe : LsMeets (ls 0x01000000 0) fun _ s => probeOk s := by
  unfold LsMeets Runs RunsExt probeOk asks; decide +kernel
theorem wit_evac : LsMeets (ls 1 0) evacOk := by unfold LsMeets Runs RunsExt evacOk asks; decide +kernel

/-- A due access of a context. -/
def acc0 (k : AccessKind) : Access := { due := 5, ctx := 0, slot := 4, pc := 0, sclk := 7, kind := k }
/-- A core with one access due. -/
def performing (k : AccessKind) : State :=
  let s := st0 0 0 { sclk := 7 }
  s.setCore { s.core with cyc := 5, accs := [acc0 k],
                          scratch := Memory.writeLe [] 8 8 0x8877665544332280 }
theorem wit_load_performs : oneDue (performing (.load [8] 1 true 0 0x96 9 0)) (acc0 (.load [8] 1 true 0 0x96 9 0)) ∧
    ((performing (.load [8] 1 true 0 0x96 9 0)).core.ctx 0).saved = false := by unfold oneDue; decide +kernel
theorem wit_store_performs : oneDue (performing (.store 8 [some 1, none] 2)) (acc0 (.store 8 [some 1, none] 2)) := by
  unfold oneDue; decide +kernel
theorem wit_atomic_performs : oneDue (performing (.atomic 8 0 1 0 0x96 9 0)) (acc0 (.atomic 8 0 1 0 0x96 9 0)) := by
  unfold oneDue; decide +kernel

/-- The state a step answers. -/
def after {α : Type} (f : State → α) (o : Host.Outcome State Fault Refusal) : Option α :=
  match o with
  | .next t => some (f t)
  | _ => none
/-- R159: LD.B extends its sign; R162: a masked store leaves its byte; R161: ATADD delivers the old word and wraps. -/
theorem test_load_sign : after (fun t => t.arch.pipe.map (·.res.val)) (exec .scratchAccessPerform (performing (.load [8] 1 true 0 0x96 9 0))) =
    some [0xFFFFFF80] := by decide +kernel
theorem test_store_mask : after (fun t => t.core.scratch.readLe 8 2) (exec .scratchAccessPerform (performing (.store 8 [some 1, none] 2))) =
    some 0x2201 := by decide +kernel
theorem test_atomic_wraps : after (fun t => (t.core.scratch.readLe 8 8, t.arch.pipe.map (·.res.val)))
    (exec .scratchAccessPerform (performing (.atomic 8 0 0xFFFFFFFF 0 0x96 9 0))) =
    some (0x887766554433227F, [0x44332280]) := by decide +kernel

/-! ## The copy engine -/

/-- A slot at slot 7 with CE.x and CE.y in their ports and in a0 and a1, over a scratch. -/
def ce (x y : Nat) (scr : Memory := []) : State :=
  let s := st0 0 7 { sclk := 7, opnd := [(512 * 7 + 0x100, plain x), (512 * 7 + 0x101, plain y)],
                     regs := { a := [(0, { vis := BitVec.ofNat 64 x, hid := 0 }), (1, { vis := BitVec.ofNat 64 y, hid := 0 })] } } [e0]
  s.setCore { s.core with scratch := scr }
/-- A shape record of an 8-bit tensor of 16 elements at main address 0, a tile of 8 (R170), at scratch 0x40. -/
def shapeAt (ctrl : Nat) : Memory :=
  ((((((Memory.writeLe [] 0x48 4 16).writeLe 0x4C 4 1).writeLe 0x50 4 1).writeLe 0x70 2 8).writeLe 0x72 2 1).writeLe 0x74 2 1).writeLe
    0x78 8 ctrl
/-- A decode table at scratch 0: two codes of one bit (R177). -/
def tableAt : Memory := Memory.writeLe [] 0 8 0x11

/-- A slot of CE and its extended form execute, with operands that meet a condition. -/
def CeMeets (s : State) (ok : TVal → State → Prop) : Prop :=
  Runs w0 s ∧ ok (s.srcVal w0.src) s ∧ RunsExt w0 e0 [] s ∧ ok (s.srcVal w0.src) (armed e0 [] 0x100 0x101 s)
theorem wit_cpy : CeMeets (ce 0x100 0x40 (shapeAt 4)) (fun _ s => cpyOk s) := by
  unfold CeMeets Runs RunsExt cpyOk inScratch; dsimp only; and_intros <;> decide +kernel
/-- Chunk 63, bitmap 7, out of the scratch. -/
theorem wit_cpy_last : CeMeets (ce (0x100 + 2 ^ 32 * 7 + 2 ^ 35 * 63 + 2 ^ 41) 0x40 (shapeAt 4)) (fun _ s => cpyOk s) := by
  unfold CeMeets Runs RunsExt cpyOk inScratch; dsimp only; and_intros <;> decide +kernel
theorem wit_cpys : CeMeets (ce (2 ^ 32 + 8) 8) cpysOk := by
  unfold CeMeets Runs RunsExt cpysOk inScratch; and_intros <;> decide +kernel
theorem wit_xfer : CeMeets (ce (2 ^ 32 + 8) 0x40) xferOk := by
  unfold CeMeets Runs RunsExt xferOk inScratch; dsimp only; and_intros <;> decide +kernel
theorem wit_shape : CeMeets (ce 0 0) (fun t s => inScratch s (at_ t) 64 64) := by
  unfold CeMeets Runs RunsExt inScratch; dsimp only; and_intros <;> decide +kernel
theorem wit_dct : CeMeets (ce 15 0 tableAt) dctOk := by
  unfold CeMeets Runs RunsExt dctOk; dsimp only; and_intros <;> decide +kernel
theorem wit_wpclr : CeMeets (ce 0 0) (fun t s => s.core.ce.chan ((lo64 t).getLsbD 0) = []) := by
  unfold CeMeets Runs RunsExt; dsimp only; and_intros <;> decide +kernel
theorem wit_catom : CeMeets (ce 5 0) (fun t _ => (lo64 t).toNat % 8 = 0) := by
  unfold CeMeets Runs RunsExt; dsimp only; and_intros <;> decide +kernel

/-- Main memory with one leaf of 512 GiB at table page 1 (R254), and partition 1's translation of die 0 through it. -/
def mapped (s : State) : State :=
  { s with parts := [(1, { pr := { vf := 1, cores := 1, harts := 1, ranges := [(0, 0x100000)], occbud := 0 } })],
           tx := [(3, { txatp := 0x9000000000000001 })], mem := (Memory.writeLe [] 0x1000 8 0xD7).writeLe 0 8 0x8877665544332211 }
/-- A record as CPY reads it. -/
def shape0 (ctrl : W64) : ShapeRec :=
  { base := 0, dim0 := 16, dim1 := 1, dim2 := 1, str1 := 0, str2 := 0, tile := 0, ext0 := 8, ext1 := 1, ext2 := 1, ctrl := ctrl }
/-- A due command, and its core. -/
def cmd0 (dir : Bool) (ctrl : W64) : CopyCmd :=
  { ctx := 0, pc := 0, sclk := 0, s := 0x100, b := 1, first := 3, dir := dir, t := 0, shape := shape0 ctrl, recAddr := 0x40,
    checked := true }
def copying (c : CopyCmd) : State :=
  let s := mapped (st0 0 0 {})
  s.setCore { s.core with ce := { s.core.ce with buf := [c], tables := [(0, List.replicate 2 1 ++ List.replicate 254 0)] } }

/-- A command that may begin, alone and behind one in progress. -/
theorem wit_cpy_begins : begins (copying (cmd0 false 4)) 0 (cmd0 false 4) ∧
    (∀ d ∈ (copying (cmd0 false 4)).core.ce.buf, d.begun = false) ∧
    (let s := ceSet (copying (cmd0 false 4)) { buf := [{ cmd0 false 4 with begun := true }, cmd0 true 4] }
     begins s 1 (cmd0 true 4) ∧ ∃ d ∈ s.core.ce.buf, d.begun = true) := by
  unfold begins; dsimp only; and_intros <;> decide +kernel
/-- The state a step answers. -/
def nextIs (o : Host.Outcome State Fault Refusal) (p : State → Bool) : Bool :=
  match o with
  | .next t => p t
  | _ => false
/-- R172 to R174: a tile of 8 bytes has 8 elements of one byte, the last at S + 7, and one chunk. -/
theorem test_cpy_begin : nextIs (exec .cpyBegin (copying (cmd0 false 4))) (fun t => t.core.ce.buf.map (fun c => (c.begun, c.chunks,
    c.els.length, c.els.getLast?.map fun e => (e.loc, e.va, e.n, e.chunk))) == [(true, [3], 8, some (0x107, 7, 1, 3))]) = true := by
  decide +kernel
/-- A transfer in progress with two elements, one read. -/
def el0 : CopyEl := { chunk := 3, loc := 0x100, va := 0, n := 1 }
def el1 : CopyEl := { chunk := 3, loc := 0x101, va := 1, n := 1, got := some [0x22] }
def moving (dir : Bool) (els : List CopyEl) : CopyCmd := { cmd0 dir 4 with begun := true, chunks := [3], els := els }
theorem wit_transfer_moves : (∀ d ∈ [false, true], oneTransfer (copying (moving d [el0, el1])) (moving d [el0, el1])) ∧
    oneTransfer (copying (moving true [el1])) (moving true [el1]) ∧ unwatched (copying (moving true [el1])) ∧ apart [el0, el1] ∧
    (∀ e ∈ [el0, el1], ((copying (moving false [el0, el1])).vread 1 0 e.va e.n).toOption.isSome = true) ∧
    ((copying (moving true [el1])).vwrite 1 0 el1.va [0x22]).toOption.isSome = true := by
  refine ⟨?_, ?_, ?_, ⟨by decide, ?_⟩, ?_, ?_⟩
  · unfold oneTransfer; decide +kernel
  · unfold oneTransfer; decide +kernel
  · unfold unwatched; decide +kernel
  · intro e he
    rcases List.mem_cons.mp he with rfl | he
    · exact ⟨by decide, fun bs h => by simp [el0] at h⟩
    · rcases List.mem_singleton.mp he with rfl
      exact ⟨by decide, fun bs h => by simp [el1] at h; subst h; rfl⟩
  · decide +kernel
  · decide +kernel
theorem wit_moves_held : (let s := copying (moving false [el0]); s.setCore { s.core with hold := 1 }).core.hold = 1 ∧
    (copying (moving false [el0])).core.cyc = 0 := by decide +kernel
/-- R174: a chunk none of whose elements is left sets its bit; one with an element left does not. -/
theorem wit_chunk : (∃ b ∈ (moving true []).chunks, ((moving true []).els.any fun e => e.chunk == b) = false) ∧
    (∀ b ∈ (moving true []).chunks, b < 64) ∧ (∀ b ∈ (moving true [el0]).chunks, ∃ e ∈ (moving true [el0]).els, e.chunk = b) := by
  decide +kernel
theorem test_chunk : nextIs (exec .chunkBitSet (copying (moving false []))) (fun t => SMap.get 0 t.ctx.cb 1 == 8 && t.core.ce.buf == []) = true ∧
    nextIs (exec .chunkBitSet (copying (moving false [el0]))) (fun t => SMap.get 0 t.ctx.cb 1 == 0) = true := by decide +kernel
/-- A decoded tile of eight symbols of one bit (R177): its index entry at 0x200 gives main address 0. -/
def cmdDec (next : Option Nat) : CopyCmd :=
  { cmd0 false 0x24 with shape := { shape0 0x24 with base := 0x200 }, begun := true, dec := { next := next },
                         els := (List.range 8).map fun i => { chunk := 3, loc := 0x100 + i, va := 0, n := 1 } }
theorem wit_decoder : (cmdDec none).dec.next = none ∧ unwatched (copying (cmdDec none)) ∧ (cmdDec (some 0)).dec.next = some 0 ∧
    ((copying (cmdDec none)).vread 1 0 (cmdDec none).shape.entryAddr 8).toOption = some (leBytes 8 0) ∧
    ((copying (cmdDec (some 0))).vread 1 0 0 8).toOption.isSome = true ∧ (∀ e ∈ (cmdDec (some 0)).els, e.got = none) := by
  unfold unwatched; decide +kernel
/-- R177: the bits of 0x11, the first byte of the stream, from its highest on, are the eight symbols. -/
theorem test_decode : (((copying (cmdDec (some 0))).decodeRead 0 (cmdDec (some 0))).2.1.els.map (·.got)) =
    [some [0], some [0], some [0], some [1], some [0], some [0], some [0], some [1]] := by decide +kernel
theorem wit_cpy_waits : ∀ c ∈ (copying { cmd0 false 4 with t := 1 }).core.ce.buf, c.begun = true ∨
    (copying { cmd0 false 4 with t := 1 }).pcc < c.t ∨ (copying { cmd0 false 4 with t := 1 }).core.cyc < c.ready := by decide +kernel

/-- A core with a stream of 72 bytes, the word of its last 8 read, and a CATOM, over mapped memory. -/
def streaming : State :=
  let s := mapped (st0 0 0 {})
  s.setCore { s.core with ce := { s.core.ce with ch0 := [{ ctx := 0, pc := 0, s := 0x100, len := 72, va := 0, pos := 64, words := [(8, 5)] }],
                                                 catoms := [{ ctx := 0, pc := 0, sclk := 3, add := 1, va := 0, due := 0 }] } }
theorem wit_stream : ∃ st : Stream, streaming.core.ce.chan streaming.frame.cur.eng = [st] ∧ streaming.core.hold ≤ streaming.core.cyc ∧
    st.ready ≤ streaming.core.cyc ∧ unwatched streaming ∧ granule st = 8 ∧ st.pos % 8 = 0 ∧ st.len % 8 = 0 ∧
    (∀ i < granule st / 8, SMap.find st.words (st.pos / 8 + i) = some 5) ∧
    (∀ i ∈ st.window, (streaming.vread (partHere streaming) (dieHere streaming) (st.va + BitVec.ofNat 64 (8 * i)) 8).toOption.isSome = true) := by
  refine ⟨{ ctx := 0, pc := 0, s := 0x100, len := 72, va := 0, pos := 64, words := [(8, 5)] }, ?_⟩; unfold unwatched; decide +kernel
theorem wit_catom_due : ∃ c : CatomCmd, streaming.core.ce.catoms[0]? = some c ∧ c.due ≤ streaming.pcc ∧ c.ready ≤ streaming.core.cyc ∧
    (streaming.vread 1 0 c.va 8).toOption = some (leBytes 8 0x8877665544332211) ∧
    (streaming.vwrite 1 0 c.va (leBytes 8 0x8877665544332212)).toOption.isSome = true := by
  refine ⟨{ ctx := 0, pc := 0, sclk := 3, add := 1, va := 0, due := 0 }, ?_⟩; decide +kernel
/-- R181: CATOM adds to its word and delivers the old one. -/
theorem test_catom : nextIs (exec .catomAnswer streaming) (fun t =>
    t.mem.readLe 0 8 == 0x8877665544332212 && (t.ctx.cur.port 0x9A).val == 0x8877665544332211 && t.core.ce.catoms == []) = true := by
  decide +kernel

/-! ## Answers -/

/-- A context waiting for an answer of a kind for p1 of slot 4. -/
def waiting (kind code arg : Nat) : State :=
  let s := mapped (st0 0 4 {})
  s.setCtx { s.ctx with answers := [{ kind := kind, pk := 1, slot := 4, issued := 3, code := code, arg := arg, due := 0 }] }
theorem wit_answers : (∀ k ∈ [0, 1], ((waiting k 0 6).ctx.answerOf k (waiting k 0 6).core.cyc).isSome = true) ∧
    ((waiting 2 0 6).ctx.answers.find? fun w => w.kind == 2).isSome = true := by decide +kernel
/-- The pages of a range that ends in the next page; one present, one not canonical and so denied, one past the table's entries and so
absent. -/
theorem wit_pages : pageAddrs 0xFF0 0x20 = [0xFF0, 0x1000] ∧ pageAddrs 5 1 = [5] ∧ (waiting 0 0 0).xlat 1 0 5 false = .ok 5 false ∧
    (waiting 0 0 0).xlat 1 0 (BitVec.ofNat 64 (2 ^ 47)) false = .denied ∧
    (waiting 0 0 0).xlat 1 0 (BitVec.ofNat 64 (2 ^ 39)) false = .absent := by decide +kernel
/-- A page present; one not canonical and so denied; one past the table's entries and so absent. -/
theorem wit_scans : (waiting 0 0 0).pageScan 1 0 0 1 false = (false, none) ∧
    (waiting 0 0 0).pageScan 1 0 (BitVec.ofNat 64 (2 ^ 47)) 1 false = (true, none) ∧
    (waiting 0 0 0).pageScan 1 0 (BitVec.ofNat 64 (2 ^ 39)) 1 false = (false, some (BitVec.ofNat 64 (2 ^ 39))) := by decide +kernel
theorem wit_evac_plan : ((waiting 1 0 6).core.rows.evacPlan 6).d = [] ∧ ((waiting 1 0 6).core.rows.evacPlan 6).dl = [] := by
  decide +kernel
theorem wit_evac_answer : ((waiting 1 0 6).core.rows.evacPlan 6).fits = true := by
  simp [EvacPlan.fits, wit_evac_plan.1, wit_evac_plan.2]
/-- R167: a present page answers true and code 0. -/
theorem test_probe : nextIs (exec .probeAnswer (waiting 0 0 0)) (fun t =>
    t.ctx.cur.regs.getP 1 == { vis := false, hid := true, wr := true } && (t.ctx.cur.port 0x96).val == 0 && t.ctx.answers == []) =
    true := by decide +kernel
/-- R250: a lease granted for 5 of the 6 cycles asked. -/
theorem test_lease : nextIs (exec (.leaseAnswer true 5) (let s := waiting 2 0 6; s.setPart 1 { s.part 1 with facc := [(0, 2)] })) (fun t =>
    (t.core.lease.map (·.left)) == some 5) = true := by decide +kernel
/-! ## Launch-wide steps -/

/-- A launch whose context 0 waits in a group's episode, with a member list, on core 0 at its cursor. -/
def episode (g : Nat) : State :=
  let s := st0 0 0 {}
  let x := s.ctx
  let l := { launch0 with groups := [(g, 0, 0)], episodes := [(g, { arrived := [((0, 0), 100)] })] }
  { s with launches := [l] }.setCtx { x with status := .blocked, cond := some (.bar (BitVec.ofNat 8 g)) }
/-- The launch of a small state. -/
def theLaunch (s : State) : Launch := s.launches.headD launch0

theorem wit_barrier : ∀ g ∈ [0, 255], launchIs (episode g) 9 (theLaunch (episode g)) ∧
    (episode g).mayRelease (theLaunch (episode g)) g = true ∧ noEntries (episode g) (theLaunch (episode g)) ∧
    (∀ m ∈ (SMap.get {} (theLaunch (episode g)).episodes g : Episode).arrived, m.1.1 < (theLaunch (episode g)).cores.length ∧ m.1.2 < 4) := by
  unfold launchIs noEntries; decide +kernel
/-- Its member has arrived, and every write it has issued has performed; group 3's, and group 255's of one context of one core. -/
theorem wit_barrier_goes : mayGo (episode 3) (theLaunch (episode 3)) 3 ∧ mayGo (episode 255) (theLaunch (episode 255)) 255 := by
  have come : ∀ g, g = 3 ∨ g = 255 → hasCome (episode g) (theLaunch (episode g)) g (0, 0) ∧
      hasWritten (episode g) (theLaunch (episode g)) (0, 0) := by
    rintro g (rfl | rfl) <;> exact ⟨.inl ⟨((0, 0), 100), by decide +kernel, rfl⟩,
        fun a h => absurd (show a ∈ ([] : List Access) from h) List.not_mem_nil⟩
  refine ⟨⟨fun m h => ?_, fun h => absurd h (by decide)⟩, ⟨fun m h => ?_, fun _ => rfl⟩⟩
  · obtain rfl : m = (0, 0) := by simpa [isMember, theLaunch, episode] using h
    exact come 3 (.inl rfl)
  · obtain ⟨x, y⟩ := m
    have : x < 1 ∧ y < 1 := h
    obtain ⟨rfl, rfl⟩ : x = 0 ∧ y = 0 := by omega
    exact come 255 (.inr rfl)
/-- With a store of its member not performed it may not; a cycle of its core ends in this PCC cycle, or one is under way. -/
theorem wit_barrier_writes : ¬mayGo (let s := episode 3; s.setCore { s.core with accs := [acc0 (.store 8 [some 1] 2)] }) (theLaunch (episode 3)) 3 ∧
    (episode 3).core.last = (episode 3).pcc ∧ ({ episode 3 with pcc := 1 } : State).core.last ≠ 1 := by
  refine ⟨fun h => ?_, by decide +kernel, by decide +kernel⟩
  have w := (h.1 (0, 0) (by unfold isMember; decide +kernel)).2
  exact w (acc0 (.store 8 [some 1] 2)) (by decide +kernel) rfl
theorem wit_barrier_waits : launchIs (episode 3) 9 (theLaunch (episode 3)) ∧
    (SMap.get {} (theLaunch (episode 3)).episodes 4).arrived = [] := by unfold launchIs; decide +kernel
/-- R297: the release of group 255 readies its member and begins a step of 100 cycles. -/
theorem test_barrier_step : nextIs (exec (.barrierRelease 9 255) (episode 255)) (fun t =>
    (theLaunch t).step == some (0, 100) && t.ctx.status == .ready && (theLaunch t).episodes == []) = true := by decide +kernel

/-- One core whose context 0 holds a released entry of 8 bytes to its own core, not begun, with its element read or not. -/
def entry0 (left : List (Nat × Option (List Byte))) : XferEntry :=
  { ctx := 0, src := 0, len := 8, dst := 0x20, dcore := 0, ofs := 0, pc := 0, rel := some 0, left := left }
def transferring (left : List (Nat × Option (List Byte))) : State :=
  let s := { st0 0 0 {} with pcc := 1000 }
  let s1 := s.setCore { s.core with scratch := Memory.writeLe [] 0 8 0x1122334455667788 }
  s1.setCtx { s1.ctx with xfers := [entry0 left] }
/-- The entry with its element not read, and read. -/
def unread : List (Nat × Option (List Byte)) := [(0, none)]
def readEl : List (Nat × Option (List Byte)) := [(0, some [0x88, 0x77, 0x66, 0x55, 0x44, 0x33, 0x22, 0x11])]
theorem wit_transfer : launchIs (transferring []) 9 (theLaunch (transferring [])) ∧ (theLaunch (transferring [])).cores = [0] ∧
    (∀ l ∈ [unread, readEl], (transferring l).launchAt 0 = some (theLaunch (transferring l)) ∧ (transferring l).core.rows.errs = [] ∧
      (transferring l).core.hold ≤ (transferring l).core.cyc ∧ (transferring l).core.begun = [entry0 l] ∧
      (transferring l).ctx.xfers = [entry0 l] ∧ (theLaunch (transferring l)).windowEnd 0 (entry0 l) ≤ 1000 + 4 ∧
      ((transferring l).core.begun.filter fun f => (theLaunch (transferring l)).cores.getD f.dcore 0 == 0) = [entry0 l]) ∧
    readEl.Pairwise (fun x y => x.1 + 8 ≤ y.1) := by unfold launchIs; decide +kernel
/-- R180, R263: an entry begins with its elements; one whose window ends is read, and one read is delivered. -/
theorem test_transfer : nextIs (exec (.xferTransfer 9) (transferring [])) (fun t => t.ctx.xfers == [entry0 unread]) = true ∧
    ((transferring unread).readXfers 0).ctx.xfers = [entry0 readEl] ∧
    ((transferring readEl).writeXfers 0).core.scratch.readLe 0x20 8 = 0x1122334455667788 := by decide +kernel
/-- A launch in a step that ends at 100, at a PCC, its core with a deferred request of OP7 and no lease. -/
def stepping (pcc : Nat) : State :=
  let s := { st0 0 0 {} with pcc := pcc, launches := [{ launch0 with step := some (0, 100) }] }
  s.setCore { s.core with pwr := { s.core.pwr with deferred := some 7 } }
theorem wit_step_end : ∀ p ∈ [99, 100], launchIs (stepping p) 9 (theLaunch (stepping p)) ∧
    (theLaunch (stepping p)).step = some (0, 100) := by unfold launchIs; decide +kernel
/-- R242: OP7 without a lease at the end of a step becomes OP6. -/
theorem test_step_end : nextIs (exec (.commStepEnd 9) (stepping 100)) (fun t =>
    t.core.pwr.req == 6 && t.core.pwr.deferred == none && (theLaunch t).step == none) = true := by decide +kernel

/-- A request for the next tile of a 3 by 2 by 1 grid, arrived, with an index left. -/
def nt0 : NtReq := { core := 0, ctx := 0, reg := 2, sclk := 5, arrive := 0, due := 0 }
def dispensing (next : Nat) : State :=
  let s := { st0 0 0 {} with pcc := 1, launches :=
    [{ launch0 with ntq := [nt0], disp := [(0, (next, 5))], lr := { tiles := 0x100020003 } }] }
  s.setCtx { s.ctx with ntWait := [(2, 5)] }
theorem wit_dispenser : ∀ n ∈ [4, 5], (dispensing n).launch = some (theLaunch (dispensing n)) ∧
    (theLaunch (dispensing n)).ntq = [nt0] ∧ nt0.arrive < (dispensing n).pcc ∧ nt0.due ≤ (dispensing n).core.cyc ∧
    ((dispensing n).core.ctx 0).ntWait = [(2, 5)] ∧
    ((dispensing n).launches.filter fun x => x.part == 1 && x.tag == 9) = [theLaunch (dispensing n)] := by decide +kernel
/-- R301: index 4 is tile (1, 1, 0); past the end the answer has bit 63 alone. -/
theorem test_dispenser : nextIs (exec .dispenserAnswer (dispensing 4)) (fun t =>
    (t.ctx.cur.regs.getNt 2).hid == 0x10001 && (theLaunch t).disp == [(0, (5, 5))]) = true ∧
    nextIs (exec .dispenserAnswer (dispensing 5)) (fun t => (t.ctx.cur.regs.getNt 2).hid == 0x8000000000000000) = true := by
  decide +kernel
/-! ## The engines -/

/-- A slot at slot 6 with ME0's x, and engine 0 as given, which reads a row a0 of the Larder with a claimed slot 3. -/
def me (x t : Nat) (g : Engine) (slot : Nat := 6) (c : Nat := 0) (rest : List Word24 := [e0]) : State :=
  let s := st0 c slot { sclk := 7, ports := [(0x98, tv 5 4)], opnd := [(512 * slot + 0x100, plain x)],
                        regs := { a := [(0, { vis := BitVec.ofNat 64 x, hid := 0 }), (4, { vis := BitVec.ofNat 64 t, hid := 0 })],
                                  s := [(0, { vis := BitVec.ofNat 32 x, hid := 0 }), (4, { vis := BitVec.ofNat 32 t, hid := 0 })],
                                  acc := [(0, { vis := { val := 0, tag := 1 }, hid := {} })] } } rest
  s.setCore { s.core with me0 := g, rows := { s.core.rows with owner := [(3, 0x80)] } }
/-- Slots that read a4 and ME0.q. -/
def wq : Slot := { gd := { n := false, g := 0 }, src := 0x98 }
def wa : Slot := { gd := { n := false, g := 0 }, src := 0x44 }
/-- An engine held by context 0 with a configuration, and a free one. -/
def heldBy (cfg : W64) : Engine := { holder := 0, cfg := some cfg }

/-- A trigger of engine 0 and its extended form execute, with operands that meet a condition. -/
def MeMeets (w : Slot) (s : State) (h : Bool) (ok : Bool → TVal → State → Prop) : Prop :=
  s.inHandler = h ∧ Runs w s ∧ ok false (s.srcVal w.src) s ∧ RunsExt w e0 [] s ∧
    ok false (s.srcVal w.src) (armed e0 [] (mePortX false) (mePortY false) s)
theorem wit_mcfg : MeMeets wa (me 0 0x24AA {}) false (fun e t s => s.frame.cur.ctx < 4 ∧ (engOf s e).holder = 7 ∧ cfgLegal (lo64 t).toNat) := by
  unfold MeMeets Runs RunsExt cfgLegal; dsimp only; and_intros <;> decide +kernel
theorem wit_mdrain : MeMeets wa (me 0 0 {}) false (fun e _ s => holdsOrFree s e ∧ asks s) := by
  unfold MeMeets Runs RunsExt holdsOrFree holds asks; dsimp only; and_intros <;> decide +kernel
theorem wit_claim : MeMeets wa (me 0 31 (heldBy 0x24AA)) false claimOk := by
  unfold MeMeets Runs RunsExt claimOk holds; dsimp only; and_intros <;> decide +kernel
theorem wit_release : MeMeets wa (me 0 3 (heldBy 0x24AA)) false
    (fun e t s => holds s e ∧ (lo64 t).toNat < 32 ∧ owned s e (lo64 t).toNat ∧ ¬inUse s e (lo64 t).toNat) := by
  unfold MeMeets Runs RunsExt inUse owned holds; dsimp only; and_intros <;> decide +kernel
theorem wit_mput : MeMeets wq (me (3 + 32 * 63) 0 (heldBy 0x1244)) false mputOk := by
  unfold MeMeets Runs RunsExt mputOk inUse owned holds; dsimp only; and_intros <;> decide +kernel
theorem wit_mlget : MeMeets wa (me 0 (3 + 32 * 63) (heldBy 0x1244)) false mlgetOk := by
  unfold MeMeets Runs RunsExt mlgetOk owned holds; dsimp only; and_intros <;> decide +kernel
theorem wit_mzero : MeMeets wa (me 0 16 {}) false mzeroOk := by
  unfold MeMeets Runs RunsExt mzeroOk holdsOrFree holds; dsimp only; and_intros <;> decide +kernel
theorem wit_mget : MeMeets wa (me 0 (16 * 63 + 1024 * 5 + 2 ^ 14) {}) false mgetOk := by
  unfold MeMeets Runs RunsExt mgetOk holdsOrFree holds; dsimp only; and_intros <;> decide +kernel
/-- In the handler the sources are s registers: e4 moves s0 to x. -/
theorem wit_mpsw : ∀ x ∈ [511, 2 ^ 9 + 63], (me x 16 {} 6 4 [e4]).inHandler = true ∧ Runs w4 (me x 16 {} 6 4 [e4]) ∧
    RunsExt w4 e4 [] (me x 16 {} 6 4 [e4]) ∧ mexOf (me x 16 {} 6 4 [e4]) false = x ∧
    mexOf (armed e4 [] 0x100 0x101 (me x 16 {} 6 4 [e4])) false = x := by
  unfold Runs RunsExt; decide +kernel
/-- An engine whose entry 0 starts a routine of one MEND. -/
def calling : State := me 0 0 { heldBy 0x24AA with rtab := [(0, 0x8000)], store := [] } 6 0 [0x000007]
theorem wit_mcall : calling.inHandler = false ∧ Runs wa calling ∧ calling.frame.rest = [0x000007] ∧
    (State.callCheck { calling with frame := { calling.frame with rest := [] } } false 0 7).toOption = some ([], []) := by
  unfold Runs; decide +kernel
theorem wit_lend : MeMeets wa (me 0 3 {} 0) false (fun e t s => e = false ∧ s.frame.banks.getLsbD ((lo64 t).toNat % 4) = false) := by
  unfold MeMeets Runs RunsExt; dsimp only; and_intros <;> decide +kernel
/-- Refusals: an engine of context 1, one's own, a free one with an illegal word, a Busy one. -/
theorem wit_refusals : (∀ g ∈ ([{ holder := 1 }, heldBy 0x24AA, {}, { heldBy 0x24AA with busy := true }] : List Engine),
      (me 0 0 g 6 0 [7]).inHandler = false ∧ Runs wa (me 0 0 g 6 0 [7]) ∧ (me 0 0 g 6 0 [7]).frame.rest = [7]) ∧
    (engOf (me 0 0 { holder := 1 }) false).holder ≠ selfHolder (me 0 0 { holder := 1 }) ∧
    (engOf (me 0 0 (heldBy 0)) false).holder = selfHolder (me 0 0 (heldBy 0)) ∧ ¬cfgLegal 0 := by
  unfold Runs cfgLegal; and_intros <;> decide +kernel
/-- R192: MCFG of an engine that another context holds. -/
theorem test_mcfg_held : nextIs (exec (.mcfg wa false) (me 0 0x24AA { holder := 1 })) (fun t =>
    t.frame.raised.map (fun r => r.1) == [Err.engineHolder]) = true := by decide +kernel

/-- A routine of engine 0 in progress, its descriptors and index registers set, in a state with nothing else. -/
def routine0 : Routine := { ctx := 0, pc := 0, sclk := 7, startAt := 7, started := true, upc := 5, mx := [(1, 2), (7, 15)],
                            ad := some 0x00020A00, bd := some 0x00020A01, tiles := [{ q := 3, tile := 0, val := 0 }] }
def running (r : Routine) : State := me 0 0 { heldBy 0x24AA with busy := true, run := some r }
theorem wit_routine : routine (running routine0) routine0 := by unfold routine; decide +kernel
theorem wit_micro_control : (({ routine0 with loops := [{ body := 1, stop := 9, count := 1 }] } : Routine).loops.length < 2) ∧
    (∀ n ∈ [1, 2], ∃ l : MicroLoop, ({ routine0 with loops := [{ body := 1, stop := 5, count := n }] } : Routine).loops = [l] ∧
      l.stop = routine0.upc) ∧
    openOf routine0 0 = none ∧ (ix routine0 7).toNat < 16 ∧ (running routine0).core.rows.errs = [] := by
  refine ⟨by decide, ?_, by decide +kernel, by decide +kernel, by decide +kernel⟩
  intro n _; exact ⟨{ body := 1, stop := 5, count := n }, rfl, rfl⟩
theorem wit_mmac : (openOf routine0 3).isSome = true ∧ routine0.ad.isSome = true ∧ routine0.bd.isSome = true ∧
    ((running routine0).core.ctx 0).status ≠ .stopped ∧ routine0.spr = false ∧ bits (0x24AA : W64).toNat 14 2 = 0 ∧
    (0x24AA : W64).toNat % 16 = 10 ∧ bits (0x24AA : W64).toNat 4 4 = 10 ∧ bits (0x00020A00 : W64).toNat 8 4 = 10 := by decide +kernel
/-- The routine at its MEND, in its last cycle or before it, with or without an error read. -/
def ended (b : Bool) (d : Option W64) : Routine := { routine0 with ending := true, done := b, dataLoss := d }
/-- MEND's first cycle, a later one, its last with and without an error read. -/
theorem wit_mend : routine (running routine0) routine0 ∧ routine0.done = false ∧ routine0.ending = false ∧
    (∀ r ∈ [ended false none, ended false (some 5), ended true none, ended true (some 5)], routine (running r) r) ∧ ((running routine0).core.ctx 0).status = .ready := by
  unfold routine; decide +kernel
/-- R208: MEND of one tile takes 4 cycles; its landing writes the hidden face with tag 1 or 8 and frees the engine. -/
theorem test_mend : nextIs (exec .mend (running routine0)) (fun t => (t.core.me0.run.map fun r => (r.ending, r.left, r.done)) == some (true, 3, false)) = true ∧
    nextIs (exec .mend (running { routine0 with done := true })) (fun t => !t.core.me0.busy && t.core.me0.run.isNone &&
      (t.ctx.cur.regs.getAcc 0).wr) = true := by decide +kernel
theorem wit_start : routine (running { routine0 with started := false }) { routine0 with started := false } := by
  unfold routine; decide +kernel
/-- A context with an MZERO of tile 1 due; and an engine with two MPSWs held. -/
def zeroing : State := let s := me 0 0 {}; s.setCtx { s.ctx with mzWait := [{ tile := 1, eng := false, int := true, issued := 6, due := 0 }] }
theorem wit_mzero_land : zeroing.ctx.mzWait = [{ tile := 1, eng := false, int := true, issued := 6, due := 0 }] := by decide +kernel
/-- R209: held writes land in order. -/
theorem test_mpsw_held : nextIs (exec .mpswDeferredWrite (me 0 0 { mpsw := [(true, 1, 0x8005), (false, 4, 3), (false, 4, 9)] })) (fun t =>
    t.core.me0.rtab == [(1, 0x8005)] && t.core.me0.store == [(4, 9)] && t.core.me0.mpsw == []) = true := by decide +kernel
/-- R206: MNEXT goes back while its count is above 1. -/
theorem test_mnext : nextIs (exec .mnext (running { routine0 with loops := [{ body := 1, stop := 5, count := 2 }] })) (fun t =>
    (t.core.me0.run.map fun r => (r.upc, r.loops.map (·.count))) == some (1, [1])) = true := by decide +kernel
/-! ## Flips, traps, the handler, bundles -/

/-- A context with s5 written in its phase and p3 not, with a flip pending. -/
def phase0 : CtxArch := { sclk := 9, regs := { s := [(5, { vis := 1, hid := 2, wr := true }), (6, { vis := 3, hid := 4 })],
                                               flg := { vis := 2, acc := 1, clr := 2 } } }
def flipping (fi : FlipInfo) (a : CtxArch := phase0) (c : Nat := 0) : State :=
  let s := mapped (st0 c 0 a)
  let p := s.part 1
  let s1 := s.setPart 1 { p with hcode := 0x2000, hentry := 0x100 }
  s1.setCtx { s1.ctx with flip := some fi }
theorem wit_flip : ∀ w ∈ [false, true], atFlip (flipping { wait := w }) { wait := w } ∧ plainFlip { wait := w } ∧
    noEvent (flipping { wait := w }) ∧
    (∀ m ∈ (flipping { wait := w }).core.ce.catoms, m.ctx = 0 → m.old = true) := by
  unfold atFlip plainFlip noEvent; decide +kernel
/-- R20, R41: the written register's faces are exchanged, no other's; FLG takes the phase's flags. -/
theorem test_flip : nextIs (exec .flip (flipping {})) (fun t => t.arch.regs.getS 5 == { vis := 2, hid := 1, sw := true } &&
    t.arch.regs.getS 6 == { vis := 3, hid := 4 } && t.arch.regs.flg == { vis := 1, hid := 2 }) = true := by decide +kernel
/-- A flip before its last cycle; a waiting one of a context whose CATOM, of its phase or an earlier one, is not answered. -/
def catoming (old : Bool) : State :=
  let s := flipping { wait := true }
  s.setCore { s.core with ce := { s.core.ce with catoms := [{ ctx := 0, pc := 0, sclk := 3, add := 1, va := 0, due := 9, old := old }] } }
theorem wit_flip_waits : (flipping { last := 1 }).ctx.flip = some { last := 1 } ∧ (flipping { last := 1 }).core.cyc < 1 ∧
    (∀ b ∈ [false, true], ((catoming b).core.ce.catoms.map fun m => (m.ctx, m.old)) = [(0, b)]) ∧
    (let s := me 0 0 { holder := 0, outLdsc := 1 }; (s.core.eng false).holder = BitVec.ofNat 3 0 ∧ (s.core.eng false).outLdsc ≠ 0) := by
  decide +kernel
/-- R181: a FLIP.W waits for a CATOM of its own phase and for none of an earlier one. -/
theorem test_flip_catom : nextIs (exec .flipWComplete (catoming false)) (fun t => t.ctx.flip.isSome) = true ∧
    nextIs (exec .flipWComplete (catoming true)) (fun t => t.ctx.flip.isNone && t.core.ce.catoms.map (·.old) == [true]) = true := by
  decide +kernel

/-- A phase whose NTREQ of nt2 and whose MZERO have not landed. -/
def unlanded : State :=
  let s := flipping {}
  s.setCtx { s.ctx with ntWait := [(2, 4)], mzWait := [{ tile := 1, eng := false, int := false, issued := 3, due := 9 }] }
theorem wit_timing : unlanded.ctx.flip = some {} ∧ unlanded.core.outstanding 0 = [(4, 0x8A), (3, 0xC1)] ∧
    unlanded.ctx.status = .ready ∧ unmarked unlanded 0 := by unfold unmarked; decide +kernel
/-- The stops of a core's cycle: cause, detail, SCLK. -/
def stops (k : Core) : List (Nat × W64 × W64) :=
  k.marks.map fun m => ((StopInfo.join m.infos).cause.1, (StopInfo.join m.infos).cause.2, (StopInfo.join m.infos).sclk)
/-- R320: the detail is the earliest issued. -/
theorem test_timing : nextIs (exec .flip unlanded) (fun t => t.ctx.status == .stopped && stops t.core == [(7, 0xC1, 8)] &&
    t.todo == [.capture 0]) = true := by decide +kernel
/-- R321, R325: the capture of a cycle with two stops makes two dumps of one PCC; the lowest code of a context's errors is its cause. -/
def stopMark (c : Nat) (errs : List (Nat × W64)) : StopMark := { ctx := c, infos := [{ errs := errs, pc := 0, sclk := 3 }], snap := {}, events := 0 }
def marking : State :=
  let s := st0 0 0 {}
  s.setCore { s.core with marks := [stopMark 0 [(13, 2), (12, 5)], stopMark 1 [(7, 1)]] }
theorem test_capture : ((marking.captureNow 0).dumps.map fun d => (d.ctx, d.cause, d.detail, d.others)) = [(0, 12, 5, 0x2000), (1, 7, 1, 0)] ∧
    (marking.captureNow 0).core.marks = [] := by decide +kernel
theorem wit_capture : (st0 0 0 {}).core.marks = [] ∧ ((st0 0 0 {}).launchAt 0).isSome = true ∧
    (let s := st0 0 0 {}; s.setCore { s.core with marks := [stopMark 0 [(7, 1)]] }).core.marks = [stopMark 0 [(7, 1)]] := by decide +kernel

/-- A phase with two TRAPs, the first of code 7, and a NaN trap. -/
def trapped : State := flipping {} { phase0 with trapCode := 7, trapCount := 2, arith := 1 }
theorem wit_handler : atFlip trapped {} ∧ plainFlip {} ∧ trapped.arch.trapCount ≠ 0 ∧ trapped.core.hitsOf 0 = 0 ∧
    trapped.core.svc.served = none ∧ (∀ c < 4, c ≠ 0 → (trapped.core.ctx c).status ≠ .awaiting) ∧
    (trapped.part (trapped.partOfCore 0)).hcode ≠ 0 := by unfold atFlip plainFlip; decide +kernel
/-- R131, R184, R318. -/
theorem test_handler : nextIs (exec .flip trapped) (fun t => t.core.svc.served == some 0 && (t.core.ctx 4).cur.pc == 0x100 &&
    t.core.svc.entry.cause == 0x105 && t.core.svc.entry.trap == 0x20007) = true := by decide +kernel

/-- The handler at the flip of its ERET, serving context 1. -/
def returning (action : Nat) (target : W64) : State :=
  let s := flipping { eret := some (action, target) } {} 4
  let x : Ctx := { cur := { pc := 0x40, sclk := 5 }, status := .inService, after := .blocked }
  let k := s.core.setCtx 1 x
  s.setCore { k with svc := { served := some 1 }, issuing := some 4 }
theorem wit_return : ∀ a ∈ [0, 1, 2, 3], (returning a 0x40).ctx.flip = some { eret := some (a, 0x40) } ∧
    (returning a 0x40).core.outstanding 4 = [] ∧ (returning a 0x40).core.svc.served = some 1 ∧
    ((returning a 0x40).core.ctx 1).status = .inService ∧ (returning a 0x40).core.issuing = some 4 ∧
    (∀ c < 4, ((returning a 0x40).core.ctx c).status ≠ .awaiting) ∧ unmarked (returning a 0x40) 1 ∧
    ((returning a 0x40).core.ctx 1).safeAt = none ∧ ((returning a 0x40).core.ctx 1).saved = false := by unfold unmarked; decide +kernel
/-- R132: action 0 gives the served context back its standing; action 2 stops it with handler-kill. -/
theorem test_return : nextIs (exec .flip (returning 0 0)) (fun t => (t.core.ctx 1).status == .blocked && t.core.svc.served == none) = true ∧
    nextIs (exec .flip (returning 2 0)) (fun t => (t.core.ctx 1).status == .stopped && stops t.core == [(0x1E, 0, 5)]) = true := by
  decide +kernel

/-- A pipeline with two results due for one port, one due later, and an am update due. -/
def landing : State :=
  let am0 : AmWrite := { am := 1, val := 5, due := 9, slot := 2, issued := 8 }
  let res (seq port : Nat) (due : W64) : InFlight := { seq := seq, port := port, due := due, res := plain seq, flags := 0 }
  st0 0 0 { sclk := 9, ports := [(0x95, plain 7)], amPend := [am0], pipe := [res 1 0x90 8, res 2 0x90 9, res 3 0x95 10] }
theorem wit_landing : landing.arch.amPend = [{ am := 1, val := 5, due := 9, slot := 2, issued := 8 }] ∧ (9 : W64).toNat ≤ landing.arch.sclk.toNat := by
  decide +kernel
/-- R45, R46: the last due of two results stands in the port; a later one stays in flight. -/
theorem test_landing : nextIs (exec .resultDelivery landing) (fun t => (t.arch.port 0x90).val == 2 && (t.arch.port 0x95).val == 7 &&
    t.arch.pipe.map (·.seq) == [3]) = true := by decide +kernel

/-- A packet of one bundle, its header and slot word given. -/
def packet1 (h w : Word24) : Packet := Packet.make 1 [h, w]
/-- A user context about to issue it from its loop buffer. -/
def issuing (p : Packet) (hold : Nat := 0) : State :=
  let s := st0 0 0 { sclk := 9 }
  let s1 := s.setCore { s.core with issuing := some 0, hold := hold }
  s1.setCtx { s1.ctx with fetch := { half0 := { base := 0, pkts := [p], count := 1, valid := true } } }
/-- Bundles of a MOVE of s4 to s5 on p0's complement and on p0, and of an illegal header. -/
def pFalse : Packet := packet1 1 0x80100A
def pTrue : Packet := packet1 1 0x00100A
def pBad : Packet := packet1 0x800000 0
theorem wit_issue : mayIssue (issuing pFalse) 0 pFalse ∧ mayIssue (issuing pTrue) 0 pTrue ∧ mayIssue (issuing pBad) 0 pBad := by
  refine ⟨⟨by decide, by decide +kernel, by decide +kernel, by decide +kernel, by decide +kernel, by decide +kernel, by decide +kernel,
      Prod.ext ?_ ?_⟩, ⟨by decide, by decide +kernel, by decide +kernel, by decide +kernel, by decide +kernel, by decide +kernel,
      by decide +kernel, Prod.ext ?_ ?_⟩, ⟨by decide, by decide +kernel, by decide +kernel, by decide +kernel, by decide +kernel,
      by decide +kernel, by decide +kernel, Prod.ext ?_ ?_⟩⟩ <;> decide +kernel
/-- A core held, and one in the cycles of a CLAIM. -/
theorem wit_issue_held : (issuing pFalse 1).core.cyc < (issuing pFalse 1).core.hold ∧ (issuing pFalse 1).core.splitNow = none ∧
    (let s := issuing pFalse; s.core.cyc < ({ s.core with stall := 256 } : Core).stall) := by decide +kernel
theorem wit_issue_unmarked : unmarked (issuing pBad) 0 := by unfold unmarked; decide +kernel
theorem wit_bundle : illegalDetail false 0 pFalse (Packet.bundle pFalse 0) = none ∧ illegalDetail false 0 pTrue (Packet.bundle pTrue 0) = none ∧
    illegalDetail false 0 pBad (Packet.bundle pBad 0) = some 7 ∧ (Packet.bundle pFalse 0).slots = [(0, 0x80100A)] ∧
    (∀ x ∈ (Packet.bundle pFalse 0).slots, (issueState (issuing pFalse) 0).guard (Slot.ofWord x.2).gd = false) ∧
    (∀ x ∈ (Packet.bundle pTrue 0).slots, (issueState (issuing pTrue) 0).guard (Slot.ofWord x.2).gd = true) ∧
    (Packet.bundle pFalse 0).hdr.c = false ∧ (Packet.bundle pFalse 0).hdr.e = false ∧ (Packet.bundle pFalse 0).hdr.f = false := by
  decide +kernel
/-- R321: the illegal bundle stops its context with detail 7 alone; a bundle whose slots do not execute takes one cycle. -/
theorem test_illegal : nextIs (exec .bundleIssue (issuing pBad)) (fun t => t.ctx.status == .stopped &&
    stops t.core == [(1, 7, 9)]) = true := by decide +kernel
theorem test_issue : nextIs (exec .bundleIssue (issuing pFalse)) (fun t => t.arch.pc == 0x20 && t.arch.sclk == 10 &&
    !(t.arch.regs.getS 5).wr) = true ∧ nextIs (exec .bundleIssue (issuing pTrue)) (fun t => (t.arch.regs.getS 5).wr) = true := by
  decide +kernel

/-- A context whose segment request is due; one whose metadata buffer has room. -/
def fetching (mpc : W64) (reqs : List FetchReq) : State :=
  let s := mapped (st0 0 0 { mpc := mpc })
  s.setCtx { s.ctx with fetch := { reqs := reqs } }
theorem wit_prefetch : (fetching 0 [{ va := 0x3000, current := true, due := 0 }]).ctx.fetch.reqs = [{ va := 0x3000, current := true, due := 0 }] ∧
    ((fetching 8 []).part 1).bg = false ∧ (fetching 8 []).ctx.replay = false ∧ (fetching 8 []).arch.mpc ≠ 0 ∧ (fetching 8 []).ctx.fetch.mdbuf.length < 256 ∧
    ((fetching 8 []).vread 1 0 8 4).toOption = some [0, 0, 0, 0] ∧ ((fetching 0x800000000000 []).vread 1 0 0x800000000000 4).toOption = none := by
  decide +kernel
/-! ## Timers, operating points, power, rows, dumps -/

/-- A blocked context with a condition, its bitmap 1 and write pointer 0 set, a timer and a lease of its core. -/
def standing (st : CtxStatus) (d : BlockCond) (iss : Option Nat := none) : State :=
  let s := st0 0 0 {}
  let k := { s.core with issuing := iss, ce := { s.core.ce with wp0 := 64 }, pwr := { s.core.pwr with req := 7 },
                         lease := some { ctx := 0, left := 0, granted := 5, debit := 10 } }
  (s.setCore k).setCtx { s.ctx with status := st, cond := some d, cb := [(1, 6)], timer := some 0 }
theorem wit_release_conditions : (∀ d ∈ ([.waitbm 1 6, .waitwp false 64] : List BlockCond), (standing .blocked d).ctx.status = .blocked ∧
      (standing .blocked d).ctx.cond = some d) ∧
    (∀ i < 64, (6 : W64).getLsbD i = true → (SMap.get 0 ((standing .blocked (.waitbm 1 6)).core.ctx 0).cb 1).getLsbD i = true) ∧
    ¬(∀ i < 64, (7 : W64).getLsbD i = true → (SMap.get 0 ((standing .blocked (.waitbm 1 7)).core.ctx 0).cb 1).getLsbD i = true) ∧
    (standing .blocked (.waitbm 1 7)).core.issuing ≠ some 0 ∧ (standing .ready (.bar 1)).ctx.status ≠ .blocked := by decide +kernel
theorem wit_timers : (standing .ready (.bar 0)).ctx.timer = some 0 ∧ (0 : Nat) ≤ (standing .ready (.bar 0)).pcc ∧
    ((standing .ready (.bar 0)).core.lease.map (·.left)) = some 0 ∧ (st0 0 0 {}).ctx.timer = none ∧ (st0 0 0 {}).core.lease = none := by
  decide +kernel
/-- R130: a threshold reached exactly releases; R350: OP7 becomes OP6 at a lease's end. -/
theorem test_block_release : nextIs (exec .blockRelease (standing .blocked (.waitwp false 64))) (fun t => t.ctx.status == .ready) = true ∧
    nextIs (exec .blockRelease (standing .blocked (.waitwp false 65))) (fun t => t.ctx.status == .blocked) = true := by decide +kernel
theorem test_lease_expiry : nextIs (exec .leaseExpiry (standing .ready (.bar 0))) (fun t => t.core.pwr.req == 6 && t.core.lease == none) =
    true := by decide +kernel

/-- Context 0 of a core that issues it, at its safe point, to be pre-empted, or with context 1 ready for 60,000 cycles. -/
def yielding (st : CtxStatus) (d : BlockCond) (pre other : Bool) : State :=
  let s := standing st d (some 0)
  let s1 := s.setCtx { s.ctx with safeAt := some 0, since := 60000 }
  let s2 := if other then s1.setCore (s1.core.setCtx 1 { cur := {}, status := .ready }) else s1
  { s2 with pcc := 60000, launches := [{ launch0 with preempt := pre }] }
/-- One that goes on, one that is pre-empted, one that yields; ready, and blocked with a condition that holds or does not. -/
theorem wit_yielding : (∀ st ∈ [CtxStatus.ready, .blocked], ∀ p ∈ [true, false], (yielding st (.waitbm 1 6) p false).ctx.status = st ∧
      (yielding st (.waitbm 1 6) p false).ctx.safeAt ≠ none ∧ (yielding st (.waitbm 1 6) p false).core.issuing = some 0) ∧
    (yielding .blocked (.waitbm 1 6) false false).ctx.cond = some (.waitbm 1 6) ∧
    holdsNow (yielding .blocked (.waitbm 1 6) false false).core 0 (.waitbm 1 6) ∧
    ¬holdsNow (yielding .blocked (.waitbm 1 7) false false).core 0 (.waitbm 1 7) ∧
    mustStop (yielding .ready (.waitbm 1 6) true false) ∧ mustYield (yielding .ready (.waitbm 1 6) false true) ∧
    (yielding .ready (.waitbm 1 6) false true).pcc ≤ (yielding .ready (.waitbm 1 6) false true).ctx.since := by
  refine ⟨by decide +kernel, by decide +kernel, ?_, ?_, ⟨_, rfl, rfl, rfl⟩, ⟨1, by decide, by decide, by decide +kernel, by decide +kernel⟩,
    by decide +kernel⟩ <;> unfold holdsNow <;> decide +kernel
theorem wit_going_on : ¬mustStop (yielding .ready (.waitbm 1 6) false false) ∧ ¬mustYield (yielding .ready (.waitbm 1 6) false false) := by
  refine ⟨fun ⟨l, h, hp, _⟩ => ?_, fun h => ?_⟩
  · rw [← Option.some.inj h] at hp; exact Bool.noConfusion hp
  · revert h; unfold mustYield; decide +kernel
/-- R302: at its safe point a context gives way to one ready for 20 microseconds, and not before. -/
theorem test_yield : nextIs (exec .blockRelease (yielding .ready (.waitbm 1 6) false true)) (fun t => t.core.issuing != some 0) = true ∧
    nextIs (exec .blockRelease (let s := yielding .ready (.waitbm 1 6) false true; { s with pcc := 59999 })) (fun t =>
      t.core.issuing == some 0) = true := by decide +kernel

/-- A core of a FLOOR, its point, a window, a lease of context c; its launch in a step until 100. -/
def powered (floor op : Nat) (win : Option (Nat × Nat)) (c : Nat) (step : Bool) : State :=
  let s := { st0 0 0 {} with launches := [{ launch0 with step := if step then some (0, 100) else none }] }
  s.setCore { s.core with rows := { s.core.rows with floor := floor }, lease := some { ctx := c, left := 9, granted := 9, debit := 0 },
                          pwr := { s.core.pwr with op := op, window := win } }
theorem wit_op_unmarked : unmarked (powered 5 6 none 1 false) 0 := by unfold unmarked; decide +kernel
theorem wit_op_refused : (powered 5 6 none 1 false).ctx.status = .ready ∧ (4 : BitVec 3).toNat < (powered 5 6 none 1 false).core.rows.floor ∧
    ∀ l, (powered 5 6 none 1 false).core.lease = some l → l.ctx ≠ 0 := by
  refine ⟨by decide +kernel, by decide +kernel, ?_⟩
  intro l h; rw [← Option.some.inj h]; decide
theorem wit_op : (powered 5 6 none 0 false).inStep 0 = false ∧ (powered 5 6 none 0 true).inStep 0 = true ∧
    (powered 5 6 none 0 false).core.rows.floor ≤ (7 : BitVec 3).toNat ∧ ((powered 5 6 none 0 false).core.lease.map (·.ctx)) = some 0 ∧
    (powered 0 6 (some (5, 1)) 0 false).core.pwr.window = some (5, 1) ∧ (powered 0 6 (some (5, 0)) 0 false).pcc = 0 := by decide +kernel
/-- R241, R242: from OP6 toward OP4 one point at a time, a window of 2,460 cycles; R243: its end puts OP5 in force. -/
theorem test_op_step : nextIs (exec (.opChangeRequest 4) (powered 0 6 none 0 false)) (fun t => t.core.pwr.window == some (5, 2460)) = true ∧
    nextIs (exec .opStepWindowEnd (powered 0 6 (some (5, 0)) 0 false)) (fun t => t.core.pwr.op == 5 &&
      t.core.pwr.window == some (6, 3060)) = true := by decide +kernel
theorem test_op_error : nextIs (exec (.opChangeRequest 4) (powered 5 6 none 1 false)) (fun t => t.ctx.status == .stopped &&
    stops t.core == [(6, 4, 0)]) = true := by decide +kernel

/-- R349: past the cap PRESSURE; ten evaluations above it SKIP; two low ones free it. -/
theorem test_governor :
    (({ cap := 10 } : Power).evaluate 11).gov = .pressure ∧ (({ cap := 10, gov := .pressure, evals := 9 } : Power).evaluate 11).skip = 1 ∧
    (({ cap := 10, gov := .pressure, calm := 1 } : Power).evaluate 9).gov = .none ∧
    (({ cap := 10, gov := .skip, skip := 7 } : Power).evaluate 11).skip = 7 := by decide +kernel
/-- R348: a hot die holds its cores at OP4. -/
theorem test_planner : nextIs (exec (.plannerAssignment 6 1 2 3) (let s := mapped (st0 0 0 {}); { s with pkg := { s.pkg with hot := [(0, true)] } })) (fun t =>
    t.core.pwr.ceiling == 4 && t.core.pwr.planned == 6 && (t.part 1).pool == 3 && t.core.pwr.window == some (5, 2460)) = true := by
  decide +kernel
/-- Two cores of partition 1 with caps of 5 and 9 under a package cap of 12 and a POWCAP of 11. -/
def capping : State :=
  let s := mapped (st0 0 0 {})
  let p := s.part 1
  let s1 := s.setPart 1 { p with pr := { p.pr with cores := 3, powcap := 11 } }
  { s1 with cores := [(0, { pwr := { cap := 5 } }), (1, { pwr := { cap := 9 } })], pkg := { s1.pkg with pkgcap := 12 } }
theorem wit_recap : (capping.cores.map (·.1)).Pairwise (· < ·) ∧ (capping.parts.map (·.1)).Nodup ∧ (capping.part 1).pr.powcap ≠ 0 := by
  decide +kernel
/-- R348: the later core's cap is cut to what POWCAP leaves. -/
theorem test_recap : capping.recap.cores.map (·.2.pwr.cap) = [5, 6] := by decide +kernel
/-- R348: caps are held to what the package cap leaves. -/
theorem test_cap : nextIs (exec (.plannerAssignment 6 9 2 3) (let s := st0 0 0 {}; { s with pkg := { s.pkg with pkgcap := 7 } })) (fun t =>
    t.core.pwr.cap == 7) = true := by decide +kernel

/-- A core whose row 3 is mapped and holds two erring words, with evacuation pending from a FLOOR. -/
def erring (pend : Bool) (from_ : Nat) : State :=
  let s := st0 0 0 {}
  s.setCore { s.core with rows := { s.core.rows with remap := [(0, mapEntry 3)], errs := [(refKey (.pool 3) 0, false), (refKey (.pool 3) 31, true)],
                                                     evacPend := pend, evacFrom := from_ } }
theorem wit_rows : rowExists (.pool 3) = true ∧ rowExists (.pool 12799) = true ∧ rowExists (.larder 2047) = true ∧
    (erring false 0).core.rows.refDepth (.pool 3) < 8 ∧ (erring false 0).core.rows.refUsed (.pool 3) = true ∧
    (erring false 0).inStep 0 = false ∧ SMap.find (erring false 0).core.rows.errs (refKey (.pool 3) 0) = some false ∧
    SMap.find (erring false 0).core.rows.errs (refKey (.pool 3) 31) = some true ∧
    SMap.find (erring false 0).core.rows.errs (refKey (.pool 3) 1) = none := by decide +kernel
theorem wit_evacuation : (erring true 7).core.rows.evacPend = true ∧ (erring true 7).core.me0.busy = false ∧
    (erring true 7).core.me1.busy = false ∧ (erring true 7).inStep 0 = false ∧ (erring true 7).core.rows.firmwarePoint = none := by
  decide +kernel
/-- The first point from OP0 whose spares suffice is the FLOOR before the demotion, where nothing is doomed. -/
theorem wit_firmware_plan : ((erring true 0).core.rows.evacPlan 0).d = [] ∧ ((erring true 0).core.rows.evacPlan 0).dl = [] := by
  decide +kernel
theorem wit_firmware_point : (erring true 0).core.rows.firmwarePoint = some 0 := by
  have f : ((erring true 0).core.rows.evacPlan 0).fits = true := by
    unfold EvacPlan.fits; rw [wit_firmware_plan.1, wit_firmware_plan.2]
    simp only [List.length_nil, Nat.zero_le, decide_true, Bool.and_self]
  have e : decide ((erring true 0).core.rows.evacFrom ≤ 0) = true := by decide +kernel
  have g : decide (0 ≤ ppwFop (erring true 0).core.rows.ppw) = true := by decide +kernel
  unfold Rows.firmwarePoint
  rw [show List.range 8 = 0 :: [1, 2, 3, 4, 5, 6, 7] from rfl]
  exact List.find?_cons_of_pos (by rw [e, g, f]; rfl)
/-- The evacuation under way till a core cycle. -/
def evacuating (till : Nat) : State :=
  let s := erring true 0
  s.setCore { s.core with cyc := 18, rows := { s.core.rows with fwEvac := some (0, till) } }
theorem wit_evacuating : (∀ t ∈ [18, 19], (evacuating t).core.rows.fwEvac = some (0, t)) ∧ (18 : Nat) ≤ (evacuating 18).core.cyc ∧
    (evacuating 19).core.cyc < 19 ∧ ((evacuating 18).core.rows.evacPlan 0).d.length ≤ ((evacuating 18).core.rows.evacPlan 0).p.length ∧
    ((evacuating 18).core.rows.evacPlan 0).dl.length ≤ ((evacuating 18).core.rows.evacPlan 0).pl.length := by
  have d : ((evacuating 18).core.rows.evacPlan 0).d = [] ∧ ((evacuating 18).core.rows.evacPlan 0).dl = [] := by decide +kernel
  refine ⟨by decide +kernel, by decide +kernel, by decide +kernel, ?_, ?_⟩
  · rw [d.1]; exact Nat.zero_le _
  · rw [d.2]; exact Nat.zero_le _
/-- R250: a patrol read corrects a single-bit error. -/
theorem test_patrol : nextIs (exec (.patrolRead (.pool 3) 0) (erring false 0)) (fun t => t.core.rows.errs.length == 1) = true := by
  decide +kernel

/-- A state with one captured dump, with or without a tenant key and a free slot. -/
def captured (key : Bool) (widx : W32) : State :=
  let s := mapped (st0 0 0 {})
  let d : Dump := { part := 1, core := 0, ctx := 0, snap := s.core, launch := launch0, cause := 1, detail := 0, others := 0, pcc := 0,
                    pc := 0, sclk := 0, events := 0, cmdPc := 0, due := 0 }
  let p := s.part 1
  { s.setPart 1 { p with cel := { p.cel with widx := widx, keyctl := if key then 1 else 0 } } with dumps := [d] }
theorem wit_dump : ((captured true 0).dumps.map (·.due)) = [0] ∧ ((captured true 0).dumps.map (·.part)) = [1] ∧
    ((captured true 0).part 1).cel.keyctl.getLsbD 0 = true ∧ (((captured true 0).part 1).cel.widx - 0).toNat ≠ 1 ∧
    (((captured true 1).part 1).cel.widx - ((captured true 1).part 1).cel.ridx).toNat = 1 ∧ ((captured true 0).part 1).dlog.en = false ∧
    ((captured false 0).part 1).cel.keyctl.getLsbD 0 = false := by
  decide +kernel
/-- R324: without a free slot the dump is lost. -/
theorem test_dump_lost : nextIs (exec .dumpWrite (captured true 1)) (fun t => (t.part 1).cel.lost == 1 && t.dumps.isEmpty) = true := by
  decide +kernel
/-! ## The launch unit -/

/-- A partition word: FOP 0, 64 KiB of scratch, one tile of a context, 32 registers (R27). -/
def ppw1 : W32 := BitVec.ofNat 32 (32 * 2 ^ 15 + 16 * 2 ^ 7 + 32)
/-- The launch unit's memory: the page table, a record of tag 9 at 0x3000, a core set of the first core, a segment of one packet whose START is 1 (R80). -/
def imageMem : Memory :=
  let m := ((Memory.writeLe [] 0x1000 8 0xD7).writeLe 0x300C 4 9).writeLe 0x3100 8 1
  (((m.writeLe 0x4010 4 1).writeLe 0x4014 4 10).writeLe 0x4018 4 0xB737E661).writeLe 0x40E0 2 1
/-- The record's fields: entry 0, code at 0x4000, core set at 0x3100, one context (R284). -/
def rec1 : LaunchRec := { raw := leBytes 12 0 ++ leBytes 4 9 ++ leBytes 240 0, code := 0x4000, cset := 0x3100, ppw := ppw1,
                          argS := [5], argA := [6] }
/-- Partition 1 with one core, unlocked or not, some launches in its list, and its core free. -/
def unit (flock : Bool) (l : List Launch) (free : Bool := true) : State :=
  let s := mapped (st0 0 0 {})
  let p := s.part 1
  let s1 := { s.setPart 1 { p with flock := flock } with mem := imageMem, launches := l }
  let f := s1.frame
  let k := { cyc := 3 : Core }
  { (if free then s1.setCore k else s1) with frame := { f with cur := { f.cur with part := 1 } } }
def queued0 : Launch := { tag := 9, part := 1, lr := rec1 }

theorem wit_push : ((unit true []).part 1).resetting = false ∧ ((unit true []).part 1).flock = true ∧
    ((unit true []).vread 1 ((unit true []).homeDie 1) 0x3000 256).toOption.map recordTag = some 9 ∧
    ((unit true []).vread 1 0 0x800000000000 256).toOption = none := by decide +kernel
/-- R287: LQPUSH drops bits [7:0] of the address; R288: a tag in use is refused with status 1. -/
theorem test_push : nextIs (exec (.lqpush 0x30FF) (unit true [])) (fun t => t.launches.map (fun l => (l.tag, l.part)) == [(9, 1)]) = true ∧
    nextIs (exec (.lqpush 0x3000) (unit true [queued0])) (fun t => (t.part 1).cplHeld.map (fun c => (c.tag, c.status)) == [(9, 1)]) = true := by
  decide +kernel
theorem wit_push_full : 64 ≤ (((unit true (List.replicate 64 queued0)).launches.filter fun x => x.part == 1).filter fun x =>
    x.status != .placed).length := by decide +kernel
theorem wit_cancel : (findLaunch (unit true [queued0]).launches 1 9).isSome = true ∧ queued0.status ≠ .placed ∧
    (findLaunch (unit true [launch0] false).launches 1 9).isSome = true ∧ launch0.status = .placed := by decide +kernel
/-- R292: a placed launch's blocked context stops; R288: a queued one ends with status 8. -/
theorem test_cancel : nextIs (exec (.lqcancel 9) (let s := unit true [launch0] false; s.setCtx { s.ctx with status := .blocked })) (fun t =>
      t.ctx.status == .stopped && (theLaunch t).cancel) = true ∧
    nextIs (exec (.lqcancel 9) (unit true [queued0])) (fun t => (t.part 1).cplHeld.map (·.status) == [8] && t.launches == []) = true := by
  decide +kernel
/-- A completion held, with n entries unread. -/
def ringed (n : Nat) : State :=
  let s := unit true []
  s.setPart 1 { s.part 1 with cplHeld := [{ tag := 9, status := 5, pcc := 7, hart := 0 }], cplCount := n, lqcpl := 0x5000 }
theorem wit_ring : ((ringed 255).part 1).cplHeld ≠ [] ∧ ((ringed 255).part 1).cplCount - ((ringed 255).part 1).cplRead < 256 ∧
    256 ≤ ((ringed 256).part 1).cplCount - ((ringed 256).part 1).cplRead ∧
    ((ringed 255).vwrite 1 ((ringed 255).homeDie 1) 0x5FF0 [1]).toOption.isSome = true := by decide +kernel
/-- R288: the entry's tag, status and PCC at slot 255. -/
theorem test_ring : nextIs (exec .completionRingWrite (ringed 255)) (fun t => t.mem.readLe 0x5FF0 4 == 9 && t.mem.readLe 0x5FF4 4 == 5 &&
    t.mem.readLe 0x5FF8 8 == 7 && (t.part 1).cplHeld == []) = true := by decide +kernel

theorem wit_placeable : placeable (unit true [queued0]) queued0 := by unfold placeable considers places isReady; decide +kernel
/-- Its images. -/
def images0 : Images := { cores := [0], groups := [], lives := [], micro := [], data := [], resume := 0, base := 0 }
theorem wit_images : (unit true [queued0]).readImages queued0 = some images0 ∧
    ((unit true [queued0]).coreAt 0).launch = none ∧
    (unit true [{ queued0 with lr := { rec1 with cset := 0 } }]).readImages { queued0 with lr := { rec1 with cset := 0 } } = none := by
  decide +kernel
theorem wit_code : codeOk (unit true [queued0]) queued0 images0 = true ∧
    codeOk (unit true []) { queued0 with lr := { rec1 with entry := 0x10 } } images0 = false := by decide +kernel
/-- The core held by a launch of a lower priority with a save area, and by one that may not be pre-empted. -/
def heldFor (save : W64) (pri : Nat) : State := unit true [{ launch0 with lr := { save := save } }, { queued0 with pri := pri }] false
theorem wit_takes : mayTake (heldFor 0x10000 1) { queued0 with pri := 1 } [0] ∧ ¬mayTake (heldFor 0 1) { queued0 with pri := 1 } [0] ∧
    ¬mayTake (heldFor 0x10000 0) queued0 [0] ∧ ((heldFor 0x10000 1).launchAt 0).isSome = true := by
  have at0 : ∀ sv p, (heldFor sv p).launchAt 0 = some { launch0 with lr := { save := sv } } := fun _ _ => rfl
  refine ⟨fun n hn h e => ?_, fun t => ?_, fun t => ?_, rfl⟩
  · rcases List.mem_singleton.mp hn with rfl
    rw [at0] at e; rw [← Option.some.inj e]; decide
  · exact absurd (t 0 (by simp) _ (at0 _ _)) (by decide)
  · exact absurd (t 0 (by simp) _ (at0 _ _)) (by decide)
/-- A saved launch whose cores are free, its save in a migration area, of an address that translates or of one that does not. -/
def resuming (p : Nat) (area : Option Nat) (save : W64 := 0) : State :=
  { unit true [{ queued0 with status := .saved, saveP := p, area := area, cores := [0], lr := { rec1 with save := save },
                              saved := [core0 0 (ctx0 {})] }] with pcc := 9 }
theorem wit_resuming : (∀ p ∈ [8, 9], considers (resuming p (some 0x20000)) (theLaunch (resuming p (some 0x20000)))) ∧
    (resuming 8 (some 0x20000)).resumeCores (theLaunch (resuming 8 (some 0x20000))) = some [0] ∧
    ((resuming 8 (some 0x20000)).coreAt 0).launch = none ∧
    (resuming 8 none 0x800000000000).readSave (theLaunch (resuming 8 none 0x800000000000)) 0 (readRecord 0) = none := by
  unfold considers places; decide +kernel
theorem wit_resumed : ∃ l, (resuming 8 (some 0x20000)).readSave (theLaunch (resuming 8 (some 0x20000))) 0 (readRecord 0) = some l := ⟨_, rfl⟩
theorem wit_word : wordStatus ppw1 ({} : Rows) = none := by decide +kernel
/-- R27: a register region that is not 32 rows is refused with status 2. -/
theorem test_word : wordStatus (ppw1 - 1) ({} : Rows) = some 2 := by decide +kernel

/-- A placed launch whose core has finished, or stands at a safe point to be pre-empted. -/
def ending (st : CtxStatus) (pre : Bool) : State :=
  let s := unit true [{ launch0 with preempt := pre, sawLink := true, lives := [0], lr := { rec1 with save := 0x10000 } }] false
  s.setCtx { s.ctx with status := st, safeAt := some 0 }
theorem wit_completion : findLaunch (ending .halted false).launches 1 9 = some (theLaunch (ending .halted false)) ∧
    (theLaunch (ending .halted false)).step = none ∧ ((ending .halted false).coreAt 0).finished = true ∧
    ((ending .ready true).coreAt 0).finished = false ∧ ((ending .ready true).coreAt 0).quiet = true ∧
    (theLaunch (ending .ready true)).preempt = true := by decide +kernel
/-- R288: a launch cut off by a link ends with status 7. -/
theorem test_completion : nextIs (exec (.launchCompletion 9) (ending .halted false)) (fun t => t.launches == [] &&
    (t.part 1).cplHeld.map (·.status) == [7] && (t.coreAt 0).launch == none) = true := by decide +kernel
/-- A cancelled launch one of whose contexts has stopped, and one whose contexts have halted. -/
theorem wit_cancelled : (∃ n ∈ (theLaunch (ending .stopped false)).cores, ∃ c < 4, (((ending .stopped false).coreAt n).ctx c).status = .stopped) ∧
    (∀ n ∈ (theLaunch (ending .halted false)).cores, ∀ c < 4, (((ending .halted false).coreAt n).ctx c).status ≠ .stopped) := by
  refine ⟨⟨0, by decide +kernel, 0, by decide, by decide +kernel⟩, by decide +kernel⟩
/-- R288: a cancelled launch that has stopped ends with status 8. -/
theorem test_cancelled : nextIs (exec (.launchCompletion 9) (let s := ending .stopped false
    { s with launches := s.launches.map fun l => { l with cancel := true, sawLink := false } })) (fun t =>
      (t.part 1).cplHeld.map (·.status) == [8]) = true := by decide +kernel
/-- One that may be saved, alone in its partition, and one that may not. -/
theorem wit_savable : savable (ending .ready true) (theLaunch (ending .ready true)) ∧
    ¬savable (ending .ready false) (theLaunch (ending .ready false)) ∧ ((ending .ready true).part 1).bg = false ∧
    ((ending .ready true).launches.filter fun x => x.part == 1 && x.status == .placed && x.preempt && x.area.isNone) =
      [theLaunch (ending .ready true)] := by
  refine ⟨⟨by decide +kernel, by decide +kernel, by decide +kernel, by decide +kernel, by decide +kernel⟩, fun h => ?_, by decide +kernel,
    by decide +kernel⟩
  exact Bool.noConfusion (show false = true from h.2.1)
/-- A placed launch to be pre-empted, its save in a migration area or at an address of its record. -/
def saving (area : Option Nat) (save : W64) : State :=
  let s := ending .ready true
  { s with launches := [{ theLaunch s with area := area, lr := { rec1 with save := save } }] }
/-- The pieces of its save. -/
def savedPieces (s : State) : List (Nat × List Byte) :=
  let l := theLaunch s
  savePieces l (l.cores.zip (l.cores.map fun c => (s.coreAt c).asSaved l (trapEnables l.lr.ctrl) s.pcc)) s.pcc
/-- A save into a migration area is written whole; one at an address that does not translate ends in an error (R306, R353). -/
theorem wit_save : ∃ t, (saving (some 0x20000) 0).writeSave (theLaunch (saving (some 0x20000) 0)) (savedPieces (saving (some 0x20000) 0)) = .ok t :=
  ⟨_, rfl⟩
theorem wit_save_stops : (saving none 0x800000000000).writeSave (theLaunch (saving none 0x800000000000))
    (savedPieces (saving none 0x800000000000)) = .error 0x800000000000 :=
  writeSave_stops _ (by decide +kernel) (vwrite_error (by decide +kernel))
theorem wit_saving : (theLaunch (saving none 0)).status = .placed ∧ (theLaunch (saving none 0)).preempt = true ∧
    (theLaunch (saving none 0)).step = none ∧ ((saving none 0).coreAt 0).quiet = true ∧
    findLaunch (saving none 0).launches 1 9 = some (theLaunch (saving none 0)) := by decide +kernel
/-! ## Partitions, registers, the outside -/

/-- Partition 1 under VIRT or not, its features, at a partition cursor; a queue pair and a binding of requester 5. -/
def hv (virt : Bool) (feat : W64) (cur : Cursor := { part := 1 }) : State :=
  let s := unit false [] false
  let p := s.part 1
  { s.setPart 1 { p with pr := { p.pr with virt := virt }, facc := [(0, feat)], mbxbase := 0x6000 } with
      frame := { s.frame with cur := cur },
      pkg := { s.pkg with stobind := [(0, BitVec.ofNat 64 (2 ^ 63 + 2 ^ 16 + 5))], pcmd := 0x8000 } }
theorem wit_tx : (partOf (hv false 1)).pr.virt = false ∧ (partOf (hv true 1)).pr.virt = true ∧ (partOf (hv true 1)).gtxw.length < 16 ∧
    lowHartIs (partOf (hv true 1)) 0 := by unfold lowHartIs; decide +kernel
/-- R340: a kernel's write under VIRT leaves the translation and is recorded. -/
theorem test_gtxw : nextIs (exec (.txatpWrite 5 true) (hv true 1)) (fun t => (txOf t).txatp == 0x9000000000000001 && (txOf t).katp == 5 &&
    (partOf t).gtxw == [(false, 5)] && t.irqs == [.hart 0 8 0]) = true := by decide +kernel

/-- Entry 3 of die 0 held by a partition, with an access that waits for it. -/
def paging (part : Nat) : State :=
  let s := hv false 1
  let q : PageReq := { part := part, asid := 0, page := 0x7000, write := false, pool := 0 }
  { s with prq := [(3, q)], waits := [{ cur := { part := 1 }, i := .cntchgRead, page := some 0x7000, write := false }] }
theorem wit_prq : (SMap.find (paging 1).prq 3).map (·.part) = some 1 ∧ (SMap.find (paging 2).prq 3).map (·.part) = some 2 ∧
    SMap.find (paging 1).prq 2 = none := by decide +kernel
/-- R370: the answered entry is freed and its access is tried again. -/
theorem test_prqresp : nextIs (exec (.prqresp 3) (paging 1)) (fun t => t.prq == [] && t.waits == [] && t.todo.length == 1) = true ∧
    nextIs (exec (.prqresp 3) (paging 2)) (fun t => t.prq.length == 1 && t.waits.length == 1) = true := by decide +kernel

/-- Memory with a partition record at 0x8000 of VF 2, cores 1 to 3, hart 1 and one range (R337). -/
def recMem : Memory :=
  ((((Memory.writeLe [] 0x8004 4 2).writeLe 0x8008 8 0xE).writeLe 0x8050 8 2).writeLe 0x8058 8 0x200000).writeLe 0x8060 8 0x300000
/-- The hypervisor about to command partition n. -/
def hyper (n : Nat) (mem : Memory := recMem) (l : List Launch := []) : State :=
  { hv false 0x41 { part := n } with mem := mem, launches := l }
theorem wit_commands : (hyper 2).pkg.pcmdBusy = false ∧ (partOf (hyper 2)).pr.vf = 0 ∧ (partOf (hyper 1)).pr.vf ≠ 0 ∧
    (hyper 2).recRefused 2 (recordAt (hyper 2)) = false ∧ (hyper 2 []).recRefused 2 (recordAt (hyper 2 [])) = true ∧
    (hyper 1).recRefused 1 (recordAt (hyper 1)) = false ∧ (∃ l ∈ (hyper 1 recMem [queued0]).launches, l.part = 1) ∧
    ¬(∃ l ∈ (hyper 1).launches, l.part = 1) ∧ (partOf (hyper 1)).accepts 6 = true := by decide +kernel
/-- R339: PART_CREATE reads its record; of a partition that exists it is refused with error 1. -/
theorem test_create : nextIs (exec .partCreate (hyper 2)) (fun t => (partOf t).pr.vf == 2 && (partOf t).pr.ranges == [(0x200000, 0x300000)] &&
      t.pkg.pcmdErr == 0) = true ∧ nextIs (exec .partCreate (hyper 1)) (fun t => t.pkg.pcmdErr == 1) = true := by decide +kernel
theorem test_remove : nextIs (exec .partRemove (hyper 1)) (fun t => t.parts == [] && t.tx == []) = true ∧
    nextIs (exec .partRemove (hyper 1 recMem [queued0])) (fun t => t.pkg.pcmdErr == 2) = true := by decide +kernel
/-- An area after the record, with what it holds: accepted words, a launch of a number of cores. -/
def importing (word : W64) (cores : List Nat) (n : Nat := 1) : State :=
  let s := hyper n
  let im : AreaImage := { base := 0x100, p := { facc := [(0, word)] }, launches := [{ launch0 with status := .saved, cores := cores }] }
  { s with pkg := { s.pkg with areas := [([0, 0], im)] } }
theorem wit_import : (importing 1 [1]).pkg.pcmdBusy = false ∧ (importing 1 [1]).mem.readBytes 0x8100 2 = [0, 0] ∧
    (importing 1 [1]).recRefused 1 (recordAt (importing 1 [1])) = false ∧ ((importing 1 [1]).areaAt 0x8100).map (fun im => faccOk im.p.facc) = some true ∧
    ((importing 0x80 [1]).areaAt 0x8100).map (fun im => faccOk im.p.facc) = some false ∧ (importing 1 []).pkg.pcmd.toNat / 64 % 2 ^ 48 * 64 + 256 = 0x8100 ∧
    partNo (importing 1 [] 48) = 48 := by decide +kernel
/-- R353: an import with a feature the device lacks ends with error 3, one whose launch no core set of the partition fits with error 4. -/
theorem test_import : nextIs (exec .partImport (importing 0x80 [1])) (fun t => t.pkg.pcmdErr == 3) = true ∧
    nextIs (exec .partImport (importing 1 [1, 2, 3, 4])) (fun t => t.pkg.pcmdErr == 4) = true ∧
    nextIs (exec .partImport (importing 1 [])) (fun t => t.pkg.pcmdErr == 0 && (partOf t).pr.ranges == [(0x200000, 0x300000)] &&
      t.launches.length == 1) = true := by decide +kernel
theorem wit_reset_done : (partOf (let s := hyper 1; s.setPart 1 { s.part 1 with resetting := true })).resetting = true ∧
    (partOf (hyper 1)).resetting = false ∧ lowHartIs (partOf (hyper 1)) 0 := by unfold lowHartIs; decide +kernel

/-- R351: FLOCK with the Engine bit locks; with a feature the device lacks it sets ERR. -/
theorem test_flock : nextIs (exec (.flock 1) (hv false 0x7F)) (fun t => (partOf t).flock) = true ∧
    nextIs (exec (.flock 1) (hv false 0x81)) (fun t => !(partOf t).flock && (partOf t).flockErr) = true := by decide +kernel
/-- R6, R287: reserved bits read as zero. -/
theorem test_lqcpl : nextIs (exec (.registerWrite .lqcpl 0x12345678) (hv false 1)) (fun t => (partOf t).lqcpl == 0x12345000) = true := by
  decide +kernel
theorem wit_own_page : ownPage (hv false 1) ∧ 48 ≤ partNo (hv false 1 { part := 48 }) ∧ partNo (hv false 1 { part := 62 }) < 63 ∧
    (partOf (hv false 1)).pr.holds 0x6000 = true ∧ (partOf (hv false 1)).pr.holds 0x6FFF = true ∧
    (partOf (hv false 1)).pr.holds 0x100000 = false ∧ ¬ownPage (hv false 1 { part := 48 }) := by unfold ownPage; decide +kernel
/-- R362: MBXBASE takes a page of RANGES and no other; R375: a reserved page takes nothing. -/
theorem test_mbxbase : nextIs (exec (.registerWrite .mbxbase 0xFFFFF) (hv false 1)) (fun t => (partOf t).mbxbase == 0xFF000) = true ∧
    nextIs (exec (.registerWrite .mbxbase 0x100000) (hv false 1)) (fun t => (partOf t).mbxbase == 0x6000) = true ∧
    nextIs (exec (.registerWrite .hcode 5) (hv false 1 { part := 62 })) (fun t => (partOf t).hcode == 0) = true := by decide +kernel
theorem wit_sbctl : (partOf (hv false 0x20)).accepts 5 = true ∧ (partOf (hv false 0x20)).pr.cores.getLsbD 0 = true ∧
    (partOf (hv false 1)).accepts 5 = false := by decide +kernel
/-- R344, R345: an activation is 192 sixteenths; past an OCCBUD of 0 the partition is at background priority. -/
theorem test_dram : nextIs (exec (.dramCommand .activate) (hv false 1)) (fun t => (partOf t).occuse == 192 && (partOf t).bg) = true := by
  decide +kernel
theorem test_window : nextIs (exec .occupancyWindowEnd (let s := hv false 1; s.setPart 1 { s.part 1 with occuse := 9, bg := true })) (fun t =>
    (partOf t).occlast == 9 && (partOf t).occuse == 0 && !(partOf t).bg) = true := by decide +kernel

/-- A placed launch on cores 0 and 192, and boundary 0's state. -/
def linkedBy (st : Nat) : State :=
  let s := st0 0 0 {}
  let s1 := s.setCoreAt 192 (core0 0 (ctx0 {}))
  { s1 with launches := [{ launch0 with cores := [0, 192] }], pkg := { s1.pkg with link := [(0, st)] } }
/-- The same, lane lock lost for some PCC cycles. -/
def lockLost (n : Nat) : State :=
  let s := linkedBy 0
  { s with frame := { s.frame with cur := { s.frame.cur with idx := n } } }
theorem wit_link : ((linkedBy 0).launches.filter fun l => l.status == .placed && l.spans 0) = [theLaunch (linkedBy 0)] ∧
    (theLaunch (linkedBy 0)).cores = [0, 192] ∧ (∀ c < 4, ((linkedBy 0).core.ctx c).xfers = [] ∧ (((linkedBy 0).coreAt 192).ctx c).xfers = []) ∧
    (∀ l ∈ (linkedBy 0).launches, l.status = .placed → l.spans 1 = false) ∧ SMap.get 0 (linkedBy 0).pkg.link 0 = 0 ∧
    fails (linkedBy 0) 0 ∧ fails (lockLost 301) 0 ∧ ¬fails (lockLost 300) 0 ∧ ¬fails (linkedBy 1) 0 := by
  unfold fails
  exact ⟨by decide +kernel, by decide +kernel, by decide +kernel, by decide +kernel, by decide +kernel, by decide +kernel,
    by decide +kernel, by decide +kernel, by decide +kernel⟩
/-- R355: every context of the launch stops without a dump; R368: a failed boundary trains. -/
theorem test_link : nextIs (exec (.linkFailure 0) (linkedBy 0)) (fun t => (t.core.ctx 0).status == .stopped &&
      ((t.coreAt 192).ctx 0).status == .stopped && t.dumps.isEmpty && SMap.get 0 t.pkg.link 0 == 1) = true ∧
    nextIs (exec (.linkctlRetrain 7) (linkedBy 1)) (fun t => SMap.get 0 t.pkg.link 0 == 2 && SMap.get 0 t.pkg.link 1 == 0) = true := by
  decide +kernel
/-- R375: PKGCAP is clamped to the form's 2,550 W. -/
theorem test_pkgcap : nextIs (exec (.pkgcap 0xFFFFFFFF) (hv false 1)) (fun t => t.pkg.pkgcap == 2550000) = true := by decide +kernel
/-- R377: on a GN-TY3-M alone an excess trips; the trip is held 10 ms. -/
def tripped (m on : Bool) (pcc : Nat) : State :=
  let s := hv false 1
  { s with pcc := pcc, pkg := { s.pkg with gnM := m, trip := on, tripAt := 5 } }
theorem wit_trip : (tripped true false 5).pkg.gnM = true ∧ (tripped false false 5).pkg.gnM = false ∧
    (tripped true true 30000005).pkg.tripAt + 30000000 ≤ (tripped true true 30000005).pcc ∧
    (tripped true true 30000004).pcc < (tripped true true 30000004).pkg.tripAt + 30000000 := by decide +kernel
theorem test_trip : nextIs (exec .moduleInputTrip (tripped true true 7)) (fun t => t.pkg.trip && t.pkg.tripAt == 7) = true ∧
    nextIs (exec .moduleTripClear (tripped true true 30000004)) (fun t => t.pkg.trip) = true ∧
    nextIs (exec .moduleTripClear (tripped true true 30000005)) (fun t => !t.pkg.trip) = true := by decide +kernel
/-- R372: a failed stage 2 leaves the compute cores unavailable, and boot goes on. -/
theorem test_boot_cores : nextIs (exec (.bootStageComplete false) (let s := hv false 1; { s with pkg := { s.pkg with stage := 2 } })) (fun t =>
    t.pkg.noCores && t.pkg.stage == 3 && t.pkg.bootErr == 2) = true := by decide +kernel
theorem wit_boot : ∀ g ∈ [1, 4], (let s := hv false 1; { s with pkg := { s.pkg with stage := g } }).pkg.stage = g := by decide +kernel

/-- Requests of a queue pair and of requester 5: an inbound packet or a work request, two bytes at an address. -/
def netReq (inb : Bool) (op : NetOp) (va : W64) : NetReq := { qp := 4, op := op, va := va, len := 2, inbound := inb, data := [7, 8] }
/-- A queue pair of partition 1. -/
def paired (s : State) (err : Bool) : State := { s with pkg := { s.pkg with qps := [(4, { part := some 1, err := err })] } }
def dmaReq (w : Bool) (va : W64) : DmaReq := { rid := 5, va := va, write := w, len := 2, data := [7, 8] }
theorem wit_ports : (partOf (hv false 0x19)).accepts 3 = true ∧ (partOf (hv false 0x19)).accepts 4 = true ∧
    (partOf (hv false 0x19)).accepts 2 = false ∧ (partOf (hv false 1)).accepts 3 = false ∧ (hv false 0x19).waits = [] ∧
    (∀ w ∈ [true, false], (hv false 0x19).vcheck 1 0 0x7FFF 2 w = none) ∧
    ((hv false 0x19).vwrite 1 0 0x7FFF [7, 8]).toOption.isSome = true ∧ (hv false 0x19).binding 5 = some 1 ∧
    (hv false 0x19).binding 6 = none := by decide +kernel
/-- A request that may run, on a present and an absent page; one refused; one of another partition's pair. -/
theorem wit_net : (∀ op ∈ ([.send, .write, .read, .fetchAdd 1] : List NetOp), ∀ i ∈ [true, false], pairReady (paired (hv false 0x19) false) (netReq i op 0x7FFF)) ∧
    (paired (hv false 0x19) false).vcheck 1 0 (BitVec.ofNat 64 (2 ^ 39)) 2 true = some (BitVec.ofNat 64 (2 ^ 39)) ∧
    ((paired (hv false 0x19) false).vread 1 0 0x7FFF 8).toOption.isSome = true ∧
    ((paired (hv false 0x19) false).vwrite 1 0 0x7FFF (leBytes 8 1)).toOption.isSome = true ∧
    (qpOf (paired (hv false 0x19) true) (netReq true .write 0)).err = true ∧
    (qpOf (paired (hv false 0x19 { part := 2 }) false) (netReq true .write 0)).part = some 1 ∧
    (qpOf (hv false 0x19) (netReq true .write 0)).part = none := by
  refine ⟨?_, by decide +kernel, by decide +kernel, by decide +kernel, by decide +kernel, by decide +kernel, by decide +kernel⟩
  intro op ho i hi
  refine ⟨rfl, rfl, rfl, rfl, by decide +kernel, by decide +kernel, by decide +kernel, ?_⟩
  intro w hw; exact absurd (show w ∈ ([] : List PortWait) from hw) (List.not_mem_nil)
theorem test_net_write : nextIs (exec (.networkWorkRequest (netReq true .write 0x7FFF)) (paired (hv false 0x19) false)) (fun t => t.mem.readLe 0x7FFF 2 == 0x807) = true ∧
    nextIs (exec (.networkWorkRequest (netReq true .write 0x7FFF)) (paired (hv false 1) false)) (fun t => t.mem.readLe 0x7FFF 2 == 0 &&
      (t.qp 4).status == 2) = true := by decide +kernel
/-- R370: an RC write to a page that is not present is answered with RNR NAK. -/
theorem test_net_rnr : nextIs (exec (.networkWorkRequest (netReq true .write (BitVec.ofNat 64 (2 ^ 39)))) (paired (hv false 0x19) false)) (fun t =>
    (t.qp 4).rnr == 1 && t.prq.length == 1) = true := by decide +kernel
theorem test_dma_write : nextIs (exec (.storageDma (dmaReq true 0x7FFF)) (hv false 0x19)) (fun t => t.mem.readLe 0x7FFF 2 == 0x807) = true := by
  decide +kernel
/-- R361, R362: the last byte of the mailbox page; a byte past the RANGES. -/
theorem test_host : nextIs (exec (.hostFunctionAccess { vf := 1, bar0 := true, write := true, off := 4095, len := 1, data := [9] }) (hv false 1)) (fun t =>
      t.mem.read 0x6FFF == 9) = true ∧
    nextIs (exec (.hostFunctionAccess { vf := 1, bar0 := false, write := true, off := 0x100000, len := 1, data := [9] }) (hv false 1)) (fun t =>
      decide (t.mem = (hv false 1).mem) && t.pkg.reply == some .unsupported) = true := by decide +kernel
/-- R361: a read of BAR2 returns the byte at its offset of RANGES; one with a PASID is malformed. -/
theorem test_host_read : nextIs (exec (.hostFunctionAccess { vf := 1, bar0 := false, write := false, off := 0x300C, len := 1, data := [] }) (hv false 1))
      (fun t => t.pkg.reply == some (.data [9])) = true ∧
    nextIs (exec (.hostFunctionAccess { vf := 1, bar0 := false, write := false, off := 0, len := 1, data := [], pasid := true }) (hv false 1))
      (fun t => t.pkg.reply == some .malformed) = true := by decide +kernel
/-- A write of three words to the mailbox page, none of its function's before it waiting; the words it has. -/
theorem wit_host_words : 8 < 4 % 8 + [1, 2, 3, 4, 5, 6, 7, 8, 9, 10, 11, 12, 13].length ∧ (hv false 1).frame.cur.idx = 0 ∧ (hv false 1).pkg.hostq = [] ∧
    ((hv false 1).part 1).bg = false ∧ hostWords 4 [1, 2, 3, 4, 5, 6, 7, 8, 9, 10, 11, 12, 13] = [(4, [1, 2, 3, 4]), (8, [5, 6, 7, 8, 9, 10, 11, 12]), (16, [13])] := by
  decide +kernel
/-- R361: BAR2 ends at 64 GiB. -/
theorem test_host_bar2 : nextIs (exec (.hostFunctionAccess { vf := 1, bar0 := false, write := false, off := 2 ^ 36, len := 1, data := [] }) (hv false 1))
    (fun t => t.pkg.reply == some .unsupported) = true := by decide +kernel
theorem wit_host : rangeAt (partOf (hv false 1)).pr.ranges 0xFFFFF = some 0xFFFFF ∧ (partOf (hv false 1)).pr.total = 0x100000 ∧
    (partOf (hv false 1)).mbxbase ≠ 0 ∧ (partOf (hv false 1)).dlog.en = false ∧ (hv false 1).vfPart 1 = some 1 ∧
    (hv false 1).vfPart 2 = none ∧ lowHartIs ((hv false 1).part 1) 0 := by unfold lowHartIs; decide +kernel
/-! ## Steps, encodings, invariants -/

/-- An engine whose routine has reached a store word of MSETX, the step due. -/
def micro0 : State :=
  let s := me 0 0 { heldBy 0x24AA with busy := true, run := some routine0, store := [(5, 0x40020001)] }
  { s with todo := [.micro {}] }
theorem wit_step_micro : ((engOf micro0 false).run = some routine0) ∧ routine0.ending = false ∧
    (decodeMicro (SMap.get 0 (engOf micro0 false).store 5)).isSome = true := by decide +kernel
theorem wit_step_bundle : (Packet.bundle pTrue 0).slots ≠ [] ∧ (issueState (issuing pTrue) 0).arch.mpc = 0 ∧
    (issuing pTrue).core.rows.errs = [] ∧ (issuing pTrue).core.pwr.gov = .none ∧
    (let s0 := issueState (issuing pTrue) 0
     let b := Packet.bundle pTrue 0
     let s1 := { s0 with frame := { issueFrame s0 pTrue with cyc1 := 0 } }
     s1.headErrs b.hdr b.li = [] ∧ (s1.runSlots (b.hdr.f && b.hdr.w) b.slots).frame.raised = []) := by decide +kernel
theorem wit_step_word : (decodeSlot (Cls.ofSlot (runsAt 0 0 {}).frame.cur.slot) 0x00100A) = some (.move w4 5) ∧
    nextIs (exec (.move w4 5) (runsAt 0 0 {})) (fun _ => true) = true := by decide +kernel
theorem wit_round_trip : (Instr.add w4).wf = true ∧ encodeSlot (.add w4) = some (.c0, 0x001250) ∧ encodeMicro .mend = some 0 := by
  decide +kernel
/-- R55: a step with an instruction due runs it there, with what was due after it. -/
theorem test_step : nextIs (step { State.reset with todo := [.exec { core := 3 } .powerGood, .micro {}] }) (fun t =>
    t.pkg.stage == 1 && t.frame.cur.core == 3 && t.todo.length == 1) = true := by decide +kernel
/-- R372: before stage 5, and at a stage 1 that has failed, a kernel's register is silent. -/
theorem wit_silent : (∀ g ∈ [0, 1, 4], (let s := hv false 1; { s with pkg := { s.pkg with stage := g, bootErr := g % 4 } }).responds (.vfirq 4) = false) ∧
    (let s := hv false 1; { s with pkg := { s.pkg with stage := 5 } }).responds (.vfirq 4) = true := by
  decide +kernel
/-- R4: with nothing due the PCC advances. -/
theorem test_tick : nextIs (step State.reset) (fun t => t.pcc == 1 && decide (t.mem = [])) = true := by decide +kernel
theorem wit_memory : State.reset.mem.wf = true ∧ imageMem.wf = true := by decide +kernel
theorem wit_slot_op : (slotParts (.add w4)).isSome = true ∧ nextIs (exec (.add w4) (sc 1 2 3)) (fun _ => true) = true := by decide +kernel
/-! ## Witnesses of the further clauses -/

/-- An MMAC of no elements, of two, and of a sparse routine whose selectors are legal. -/
theorem wit_mmac_forms : (ix routine0 0).toNat = 0 ∧ (ix routine0 1).toNat = 2 ∧
    routine (running { routine0 with spr := true }) { routine0 with spr := true } ∧
    (∀ i < 8, bits ({ routine0 with spr := true } : Routine).mdw.toNat (4 * i) 4 ≤ 5) := by unfold routine; decide +kernel
/-- R204: of four elements two are stored, at the places their selector names. -/
theorem test_sparse : (List.range 8).map (sparseAt 0x54) = [none, some 0, none, some 1, none, none, some 2, some 3] := by decide +kernel
/-- R109: an INT32 element wraps; R107: 1 and a chunk whose exact sum is 2^-24, half a unit in the last place, round to even. -/
theorem test_products : intElement 0xFFFFFFFF [2, -3] [3, 1] = 2 ∧
    fpChunk 0x3F800000 [(.fin ⟨false, 1, -25⟩, 0), (.fin ⟨false, 1, -25⟩, 0)] = (0x3F800000, Flags.nx) := by decide +kernel

/-- An MCALL that its engine takes; a drain of 1.0. -/
theorem wit_mcall_held : (engOf calling false).holder = BitVec.ofNat 3 0 ∧ (engOf calling false).busy = false ∧ calling.frame.rest ≠ [] := by
  decide +kernel

/-- Context 0 at group 255 with an entry of 8 bytes queued for the step, of an offset. -/
def queueing (ofs : Nat) : State :=
  let s := episode 255
  s.setCtx { s.ctx with xfers := [{ entry0 [] with rel := none, ofs := ofs }] }
theorem wit_queued : (∀ o ∈ [0, 67, 68], launchIs (queueing o) 9 (theLaunch (queueing o)) ∧ (theLaunch (queueing o)).cores.Nodup ∧
      (SMap.get {} (theLaunch (queueing o)).episodes 255 : Episode).arrived = [((0, 0), 100)] ∧
      (∀ c ∈ (theLaunch (queueing o)).cores, ∀ x < 4, ∀ f ∈ (((queueing o).coreAt c).ctx x).xfers, f.ctx = x) ∧
      ((queueing o).coreAt 0).issuing = none) ∧
    isStepOf { arrived := [((0, 0), 100)] } 100 ∧ outOfStep (theLaunch (queueing 68)) 100 (0, { entry0 [] with rel := none, ofs := 68 }) ∧
    ¬outOfStep (theLaunch (queueing 67)) 100 (0, { entry0 [] with rel := none, ofs := 67 }) := by
  refine ⟨by unfold launchIs; decide +kernel, ⟨by simp, ⟨_, List.mem_singleton.mpr rfl, rfl⟩⟩, ?_, ?_⟩ <;> unfold outOfStep <;> decide +kernel
theorem wit_queued_goes (o : Nat) : mayGo (queueing o) (theLaunch (queueing o)) 255 := by
  refine ⟨fun m h => ?_, fun _ => rfl⟩
  obtain ⟨x, y⟩ := m
  have e : theLaunch (queueing o) = theLaunch (episode 255) := rfl
  rw [isMember, if_pos rfl, e] at h
  have : x < 1 ∧ y < 1 := h
  obtain ⟨rfl, rfl⟩ : x = 0 ∧ y = 0 := by omega
  exact ⟨.inl ⟨((0, 0), 100), List.mem_singleton.mpr rfl, rfl⟩, fun a h => absurd (show a ∈ ([] : List Access) from h) List.not_mem_nil⟩
/-- R180, R320: the window of 33 cycles ends with the step of 100 from offset 67 and after it from offset 68, which stops the context. -/
theorem test_window_end : nextIs (exec (.barrierRelease 9 255) (queueing 67)) (fun t => t.ctx.status == .ready &&
      t.ctx.xfers.map (·.rel) == [some 0]) = true ∧
    nextIs (exec (.barrierRelease 9 255) (queueing 68)) (fun t => t.ctx.status == .stopped && t.ctx.xfers == [] &&
      stops t.core == [(0x1A, 0, 0)]) = true := by decide +kernel
/-- R266: an entry whose reads may not begin yet, and one whose may. -/
def late (r : Nat) : State :=
  let s := transferring unread
  s.setCtx { s.ctx with xfers := [{ entry0 unread with ready := r }] }
theorem wit_transfer_ready : (late 1).core.begun = [{ entry0 unread with ready := 1 }] ∧ (late 1).core.cyc < 1 ∧ 0 ≤ (late 0).core.cyc := by
  decide +kernel
theorem test_transfer_ready : ((late 1).readXfers 0).core.begun = [{ entry0 unread with ready := 1 }] := by decide +kernel

/-- A phase in which watchpoint 2 has hit, at a waiting flip; one at a safe point with a timer request pending. -/
def watched : State :=
  let s := flipping { wait := true }
  s.setCore { s.core with wps := [(2, { hits := 1 })] }
def timed : State :=
  let s := flipping { safe := some 0 }
  s.setCtx { s.ctx with timerReq := true }
theorem wit_handler_hit : atFlip watched { wait := true } ∧ hitBits watched 0 = 4 ∧ watched.core.svc.served = none ∧
    (watched.part (watched.partOfCore 0)).hcode ≠ 0 ∧ watched.core.ce.catoms = [] := by unfold atFlip; decide +kernel
theorem wit_handler_timer : atFlip timed { safe := some 0 } ∧ (timed.ctx.timerReq && (({ safe := some 0 } : FlipInfo).safe).isSome) = true ∧
    ¬preempted timed ∧ ¬cancelled timed := by
  refine ⟨by unfold atFlip; decide +kernel, by decide +kernel, fun ⟨l, h, p, _⟩ => ?_, fun ⟨l, h, p⟩ => ?_⟩ <;>
    (rw [← Option.some.inj h] at p; exact Bool.noConfusion p)
/-- R165, R184, R318: the watchpoint's bit in the cause word; bit 3 of a timer's. -/
theorem test_handler_hit : nextIs (exec .flipWComplete watched) (fun t => t.core.svc.entry.cause == 0x42 && t.core.svc.served == some 0) = true ∧
    nextIs (exec .flip timed) (fun t => t.core.svc.entry.cause == 8 && !(t.core.ctx 0).timerReq) = true := by decide +kernel
/-- The return to a context of a cancelled launch, and at a target its context may not jump to. -/
def cutReturn : State := { returning 0 0 with launches := [{ launch0 with cancel := true }] }
theorem wit_return_ends : cancelled cutReturn ∧ (cutReturn.core.ctx 1).after = .blocked ∧ (cutReturn.core.ctx 1).flip = none ∧
    (returning 1 0x40).targetError 0 1 0x40 ≠ none ∧ (cutReturn.core.ctx 1).after ≠ .awaiting := by
  refine ⟨⟨_, rfl, rfl⟩, ?_⟩; decide +kernel
/-- R292, R305: the blocked context stops with launch-cancelled. -/
theorem test_return_cut : nextIs (exec .flip cutReturn) (fun t => (t.core.ctx 1).status == .stopped && stops t.core == [(0x21, 0, 5)]) = true := by
  decide +kernel
/-- Rows that are not in use. -/
theorem wit_unused : rowExists (.pool 4) = true ∧ (erring false 0).core.rows.refUsed (.pool 4) = false ∧
    (erring false 0).core.rows.refUsed (.larder 0) = false ∧ (erring false 0).core.rows.refDepth (.pool 4) < 8 := by decide +kernel
/-- Two launches wait, of cores 0 and of cores 0 or 1, with core 0 held by a launch that may not be pre-empted or free. -/
def q1 : Launch := { queued0 with tag := 10 }
def q2 (cset : W64) : Launch := { queued0 with tag := 11, lr := { rec1 with cset := cset } }
def pairUp (held : Bool) (cset : W64) : State :=
  let s := unit true ((if held then [launch0] else []) ++ [q1, q2 cset]) (!held)
  let p := s.part 1
  { s.setPart 1 { p with pr := { p.pr with cores := 3 } } with mem := s.mem.writeLe 0x3200 8 2 }
def images1 (c : Nat) : Images := { images0 with cores := [c] }
theorem wit_both_images : ∀ x ∈ ([(0x3100, 0), (0x3200, 1)] : List (W64 × Nat)), ∀ h ∈ [true, false],
    (pairUp h x.1).readImages q1 = some images0 ∧ (pairUp h x.1).readImages (q2 x.1) = some (images1 x.2) ∧
    wordStatus ppw1 ((pairUp h x.1).coreAt 0).rows = none ∧ wordStatus ppw1 ((pairUp h x.1).coreAt 1).rows = none := by
  decide +kernel
theorem wit_both_code : ∀ x ∈ ([(0x3100, 0), (0x3200, 1)] : List (W64 × Nat)), ∀ h ∈ [true, false],
    codeOk (pairUp h x.1) q1 images0 = true ∧ codeOk (pairUp h x.1) (q2 x.1) (images1 x.2) = true := by
  decide +kernel
theorem wit_both (x : W64 × Nat) (hx : x ∈ ([(0x3100, 0), (0x3200, 1)] : List (W64 × Nat))) (h : Bool) :
    bothWait (pairUp h x.1) q1 (q2 x.1) images0 (images1 x.2) := by
  have i := wit_both_images x hx h (by cases h <;> simp)
  have c := wit_both_code x hx h (by cases h <;> simp)
  refine ⟨?_, ?_, ?_, ⟨i.1, ?_, c.1⟩, ⟨i.2.1, ?_, c.2⟩⟩ <;>
    (simp only [List.mem_cons, List.not_mem_nil, or_false] at hx; rcases hx with rfl | rfl <;> cases h <;>
      (try unfold places) <;> (try unfold isReady) <;> decide +kernel)
theorem wit_both_cores : ¬mayTake (pairUp true 0x3200) q1 [0] ∧ ((pairUp true 0x3200).coreAt 1).launch = none ∧
    ((pairUp false 0x3100).coreAt 0).launch = none ∧ q1.tag ≠ (q2 0x3100).tag := by
  refine ⟨fun t => ?_, by decide +kernel⟩
  exact absurd (t 0 (by simp) launch0 rfl) (by decide)
/-- R289: behind a launch that cannot be placed one of another core is placed, and one of the same core is not. -/
theorem test_both : nextIs (exec .launchPlacement (pairUp true 0x3200)) (fun t => t.launches.map (fun l => (l.tag, l.status, l.cores)) ==
      [(9, .placed, [0]), (10, .queued, []), (11, .placed, [1])]) = true ∧
    nextIs (exec .launchPlacement (pairUp true 0x3100)) (fun t => t.launches.map (·.status) == [.placed, .queued, .queued]) = true := by
  decide +kernel
/-- A launch whose prerequisite has ended with a status, and one whose prerequisite is placed. -/
def needing (last : List (W32 × Nat)) : State :=
  let s := unit true [{ queued0 with lr := { rec1 with prereq := [5] } }]
  s.setPart 1 { s.part 1 with cplLast := last }
def q9 : Launch := { q1 with lr := { rec1 with prereq := [9] } }
theorem wit_prereqs : considers (unit true [launch0, q9] false) q9 ∧ q9.status = .queued ∧ (unit true [launch0, q9] false).prereqs q9 = none ∧
    considers (needing [(5, 1)]) (theLaunch (needing [(5, 1)])) ∧ (theLaunch (needing [(5, 1)])).status = .queued ∧
    (needing [(5, 1)]).prereqs (theLaunch (needing [(5, 1)])) = some false := by
  unfold considers places; decide +kernel
/-- R289: a prerequisite that ended with another status than 0 ends its launch with status 4. -/
theorem test_prereq : nextIs (exec .launchPlacement (needing [(5, 1)])) (fun t => t.launches == [] && (t.part 1).cplHeld.map (·.status) == [4]) =
    true := by decide +kernel
/-- The saves of a pre-emption, one that is written and one whose address does not translate. -/
theorem wit_pre_emption : (∃ s, exec .launchPlacement (saving none 0x10000) = .next s ∧ findLaunch s.launches 1 9 = some (theLaunch s) ∧
      s.launches = [theLaunch s] ∧ (s.part 1).bg = false) ∧
    ∃ s, exec .launchPlacement (saving (some 0x20000) 0) = .next s ∧ savable s (theLaunch s) ∧ (theLaunch s).area.isSome = true := by
  refine ⟨⟨_, rfl, by decide +kernel, by decide +kernel, by decide +kernel⟩,
    ⟨_, rfl, ⟨by decide +kernel, by decide +kernel, by decide +kernel, by decide +kernel, by decide +kernel⟩, by decide +kernel⟩⟩

/-- A partition at background priority since an earlier cycle, with a push of its own due later. -/
def crowded : State :=
  let s := unit true []
  { s.setPart 1 { s.part 1 with bg := true, bgAt := 3 } with pcc := 5, inbox := [(6, .exec { part := 1 } (.lqpush 0x3000))] }
theorem wit_push_waits : (crowded.part 1).bg = true ∧ (crowded.part 1).bgAt < crowded.pcc ∧ (crowded.part 1).resetting = false ∧ ownPage crowded ∧
    ∃ x ∈ crowded.inbox, crowded.pcc < x.1 ∧ x.2 = .exec { part := 1 } (.lqpush 0x3000) ∧ crowded.frame.cur.part = 1 := by
  refine ⟨by decide +kernel, by decide +kernel, by decide +kernel, by unfold ownPage; decide +kernel, ⟨_, List.mem_singleton.mpr rfl, by decide +kernel, rfl, by decide +kernel⟩⟩
/-- R345: the push waits for the next cycle. -/
theorem test_push_waits : nextIs (exec (.lqpush 0x3100) crowded) (fun t => t.inbox.map (·.1) == [6, 6] && t.launches == []) = true := by
  decide +kernel
/-- A record of the partition waits before its completion; none does. -/
theorem wit_ring_held : (∃ h ∈ ({ ringed 255 with pkg := { (ringed 255).pkg with held := [.put 1 0 [] []] } } : State).pkg.held, h.part = 1) ∧
    (ringed 255).pkg.held = [] ∧ ((ringed 255).part 1).bg = false ∧ partNo (ringed 255) = 1 := by
  refine ⟨⟨_, List.mem_singleton.mpr rfl, rfl⟩, ?_⟩; decide +kernel

/-- A posted write of function 1 that waits. -/
def behind : State :=
  let s := hv false 1
  { s with pkg := { s.pkg with hostq := [({ part := 1, idx := 7 }, { vf := 1, bar0 := true, write := true, off := 0, len := 1, data := [3] })] } }
theorem wit_behind : behindOne behind (partOf behind).pr.vf.toNat ∧ (partOf behind).pr.vf = 1 ∧ behind.vfPart 1 = some 1 ∧
    (hv false 1).pkg.hostq = [] := by
  refine ⟨⟨_, List.mem_singleton.mpr rfl, ?_⟩, ?_⟩ <;> decide +kernel
/-- R274, R283: a KICK waits behind it, and so does a read. -/
theorem test_behind : nextIs (exec (.kick 5) behind) (fun t => (partOf t).kick == 0 && t.pkg.hostq.map (·.2.off) == [0, 4096]) = true ∧
    nextIs (exec (.hostFunctionAccess { vf := 1, bar0 := true, write := false, off := 0, len := 1, data := [] }) behind)
      (fun t => t.pkg.reply == none && t.pkg.hostq.length == 2) = true := by decide +kernel
/-- A die whose page request queue is full of another partition's entries: a request there is refused. -/
def refusing : State :=
  let s := paired (hv false 0x19) false
  let q (n : Nat) : PageReq := { part := 2, asid := 0, page := BitVec.ofNat 64 (4096 * n), write := false, pool := 0 }
  { s with prq := (List.range 512).map fun n => (n, q n) }
theorem wit_faults : pairReady (paired (hv false 0x19) false) (netReq true .write (BitVec.ofNat 64 (2 ^ 39))) ∧
    (partOf (hv false 0x19)).bg = false ∧ (hv false 0x19).waits = [] ∧
    (hv false 0x19).vcheck 1 0 (BitVec.ofNat 64 (2 ^ 39)) 2 true = some (BitVec.ofNat 64 (2 ^ 39)) := by
  refine ⟨⟨rfl, rfl, rfl, rfl, by decide +kernel, by decide +kernel, by decide +kernel, ?_⟩, by decide +kernel⟩
  intro w hw; exact absurd (show w ∈ ([] : List PortWait) from hw) (List.not_mem_nil)
/-- R370: a refused packet waits, its sender told nothing; a write that finds the buffer full puts its binding in error. -/
theorem test_refused : nextIs (exec (.networkWorkRequest (netReq true .write (BitVec.ofNat 64 (2 ^ 39)))) refusing) (fun t =>
      (t.qp 4).rnr == 0 && t.waits.map (·.page) == [none]) = true := by decide +kernel
def brimming : State :=
  let s := hv false 0x19
  { s with waits := [{ cur := { part := 1 }, i := .storageDma { rid := 5, va := 0, write := true, len := 262143, data := [] }, page := none,
                       write := true }] }
theorem wit_full : 262144 < 262143 + (dmaReq true 0).len ∧ brimming.binding 5 = some 1 ∧ (∀ w ∈ brimming.waits, w.gives = false) := by
  decide +kernel
theorem test_full : nextIs (exec (.storageDma (dmaReq true (BitVec.ofNat 64 (2 ^ 39)))) brimming) (fun t => (t.binding 5).isNone &&
      t.waits.length == 1 && t.prq.length == 1) = true ∧
    nextIs (exec (.storageDma (dmaReq true (BitVec.ofNat 64 (2 ^ 39)))) (hv false 0x19)) (fun t => (t.binding 5) == some 1 &&
      t.waits.length == 1 && t.prq.length == 1) = true := by decide +kernel
/-- An access that was refused an entry, at the answer of another. -/
def unaskedWait : State :=
  let s := paging 1
  { s with waits := s.waits ++ [{ cur := { part := 1 }, i := .dlogSnap, page := none, write := false }] }
theorem wit_unasked : ∃ w ∈ unaskedWait.waits, w.page = none ∧ w.gives = false ∧ w.cur.part = 1 :=
  ⟨_, List.mem_append_right _ (List.mem_singleton.mpr rfl), rfl, rfl, rfl⟩
theorem test_unasked : nextIs (exec (.prqresp 3) unaskedWait) (fun t => t.waits == [] && t.todo.length == 2) = true := by decide +kernel
/-- R6, R255: under VIRT the kernel reads TXINV back without its reserved bits. -/
theorem test_kinv : nextIs (exec (.txinvWrite 0x1FFF true) (hv true 1)) (fun t => (txOf t).kinv == 0x1003) = true := by decide +kernel
/-- A partition about to be reset with no request that gave way, and no record that waits. -/
theorem wit_reset_quiet : (hyper 1).waits = [] ∧ (hyper 1).pkg.held = [] := by decide +kernel
/-- R345: the priority falls with the charge, from the next cycle on. -/
theorem test_bg_next : nextIs (exec (.dramCommand .activate) (hv false 1)) (fun t => (partOf t).bg && (partOf t).bgAt == t.pcc && !t.isBg 1) = true := by
  decide +kernel
/-- FP8 values at the ends of their formats' ranges; an element of an N4X pair; a code of E8M0. -/
theorem wit_elements : sourceOf 7 127 0 = (.flt (.fin ⟨false, 1, 0⟩), false) ∧ sourceOf 12 0x38 0 = (.int 16, false) ∧
    sourceOf 12 0x88 1 = (.int 0, true) ∧ sourceOf 10 0xFF 0 = (.int (-1), false) ∧ e4m3.maxInt = 14 * 2 ^ 14 := by decide +kernel
end Sys2Proof.Machine
end

section
/-!
PROOF. The scalar and address operations and PNZ (R115 to R118): each function of the model is the table's integer modulo its
width, and each trigger that executes delivers it.
-/
namespace Sys2Proof.Machine

/-! ## Words as integers modulo their width -/

theorem ofInt_intOfNat (w n : Nat) : BitVec.ofInt w (Int.ofNat n) = BitVec.ofNat w n := BitVec.ofInt_natCast w n
theorem ofInt_intOfNat_toNat {w : Nat} (v : BitVec w) : BitVec.ofInt w (Int.ofNat v.toNat) = v := by simp
@[simp] theorem ofInt_un (v : W32) : BitVec.ofInt 32 (un v) = v := ofInt_intOfNat_toNat v
@[simp] theorem ofInt_sg (v : W32) : BitVec.ofInt 32 (sg v) = v := BitVec.ofInt_toInt
theorem ofInt_sub (w : Nat) (x y : Int) : BitVec.ofInt w (x - y) = BitVec.ofInt w x - BitVec.ofInt w y := by
  rw [Int.sub_eq_add_neg, BitVec.ofInt_add, BitVec.ofInt_neg, ← BitVec.sub_eq_add_neg]
theorem shiftLeft_eq_mul_ofInt {w : Nat} (v : BitVec w) (n : Nat) : v <<< n = v * BitVec.ofInt w (Int.ofNat (2 ^ n)) := by
  rw [BitVec.shiftLeft_eq_mul_twoPow, ofInt_intOfNat]
  congr 1
  exact BitVec.eq_of_toNat_eq (by rw [BitVec.toNat_twoPow, BitVec.toNat_ofNat])
theorem ushiftRight_eq_ofNat {w : Nat} (v : BitVec w) (n : Nat) : v >>> n = BitVec.ofNat w (v.toNat / 2 ^ n) := by
  rw [← Nat.shiftRight_eq_div_pow, ← BitVec.toNat_ushiftRight, BitVec.ofNat_toNat, BitVec.setWidth_eq]
theorem ofNat_compl {w : Nat} (v : BitVec w) : BitVec.ofNat w (2 ^ w - 1 - v.toNat) = ~~~v := by
  rw [← BitVec.toNat_not, BitVec.ofNat_toNat, BitVec.setWidth_eq]
/-- A 0 or 1 of any width. -/
theorem zeroExtend_ofBool {w : Nat} (p : Bool) : (BitVec.ofBool p).zeroExtend w = BitVec.ofInt w (oneIf p) := by
  cases p <;> exact BitVec.eq_of_toNat_eq (by simp [oneIf])
theorem bit32_eq_ofInt (p : Bool) : bit32 p = BitVec.ofInt 32 (oneIf p) := zeroExtend_ofBool p
theorem oneIf_eq_toNat (p : Bool) : oneIf p = Int.ofNat p.toNat := by cases p <;> rfl

/-! ## Shift amounts, clamps and fields (R106, R115, R116) -/

theorem extractLow_toNat {w : Nat} (v : BitVec w) (n : Nat) : (v.extractLsb' 0 n).toNat = v.toNat % 2 ^ n := by simp
theorem shamt_eq (c : W32) : shamt c = c.toNat % 32 := extractLow_toNat c 5
theorem shamt16_eq (b : W64) : (b.extractLsb' 0 4).toNat = b.toNat % 16 := extractLow_toNat b 4
theorem shamt64_eq (c : W64) : (c.extractLsb' 0 6).toNat = c.toNat % 64 := extractLow_toNat c 6
theorem fieldPos_eq (c : W32) : fieldPos c = fPos c := extractLow_toNat c 5
theorem fieldLen_eq (c : W32) : fieldLen c = fLen c := by
  simp [fieldLen, fLen, Nat.shiftRight_eq_div_pow]
theorem fieldOf_eq (a c : W32) : fieldOf a c = BitVec.ofNat 32 (fOf a c) := by rw [fieldOf, fieldPos_eq, fieldLen_eq, fOf]
theorem ofNat_wrapTo (w : Nat) (z : Int) : BitVec.ofNat w (wrapTo w z) = BitVec.ofInt w z := by
  have h : wrapTo w z = (BitVec.ofInt w z).toNat := (BitVec.toNat_ofInt z).symm
  rw [h, BitVec.ofNat_toNat, BitVec.setWidth_eq]
theorem clampTo_eq_clamp32 (z : Int) : clampTo (-2147483648) 2147483647 z = (clamp32 z, clamp32 z != z) := by
  unfold clampTo
  split
  · next hlo =>
    have hc : clamp32 z = -2147483648 := by unfold clamp32; omega
    rw [hc, bne_iff_ne.mpr (by omega)]
  · split
    · next hhi =>
      have hc : clamp32 z = 2147483647 := by unfold clamp32; omega
      rw [hc, bne_iff_ne.mpr (by omega)]
    · have hc : clamp32 z = z := by unfold clamp32; omega
      rw [hc, bne_self_eq_false]
/-- A sum clamped once, with SAT where the clamp changed it. -/
theorem satW32_eq (z : Int) : satW32 z = (BitVec.ofInt 32 (clamp32 z), if clamp32 z != z then Flags.sat else 0) := by
  have h : clampTo (-(Int.ofNat (2 ^ 31))) (Int.ofNat (2 ^ 31) - 1) z = _ := clampTo_eq_clamp32 z
  simp only [satW32, satSigned, h, ofNat_wrapTo]
/-- A field's sign bit is its top one. -/
theorem fieldOf_top (a c : W32) : (fieldOf a c).getLsbD (fieldLen c - 1) = (fOf a c).testBit (fLen c - 1) := by
  have : fLen c - 1 < 32 := by unfold fLen; omega
  rw [fieldOf_eq, fieldLen_eq, BitVec.getLsbD_ofNat, decide_eq_true this, Bool.true_and]
/-- The first n numbers that meet a predicate are counted by takeWhile where the next one does not. -/
theorem takeWhile_range_length {p : Nat → Bool} {n m : Nat} (h : n ≤ m) (hp : ∀ i < n, p i = true) (hn : n < m → p n = false) :
    ((List.range m).takeWhile p).length = n := by
  obtain ⟨k, rfl⟩ := Nat.exists_eq_add_of_le h
  rw [List.range_add, List.takeWhile_append_of_pos (by simpa using hp)]
  cases k with
  | zero => simp
  | succ k => simp [List.range_succ_eq_map, hn]
theorem leadZeros_eq (c : W32) : leadZeros c = ((List.range 32).takeWhile fun i => !c.getLsbD (31 - i)).length := by
  unfold leadZeros
  split
  · next h => simp [h, takeWhile_range_length (Nat.le_refl 32)]
  · next h =>
    have hc : c.toNat ≠ 0 := fun e => h (BitVec.eq_of_toNat_eq e)
    have hl : c.toNat.log2 < 32 := (Nat.log2_lt hc).mpr c.isLt
    refine (takeWhile_range_length (by omega) (fun i hi => ?_) fun _ => ?_).symm
    · have : c.toNat.testBit (31 - i) = false :=
        Nat.testBit_lt_two_pow ((Nat.log2_lt hc).mp (by omega))
      rw [BitVec.getLsbD, this, Bool.not_false]
    · rw [BitVec.getLsbD, show 31 - (31 - c.toNat.log2) = c.toNat.log2 by omega, Nat.testBit_log2 hc, Bool.not_true]
theorem setBits_eq (c : W32) : setBits c = (List.range 32).countP fun i => c.getLsbD i := List.countP_eq_length_filter.symm

/-- The two parts of a rotated word share no bit, so they add. -/
theorem rotateRight_eq_add (v : W32) (n : Nat) (h : n < 32) : v.rotateRight n = (v >>> n) + v <<< (32 - n) := by
  rw [BitVec.rotateRight_def, Nat.mod_eq_of_lt h, BitVec.add_eq_or_of_and_eq_zero]
  apply BitVec.eq_of_getLsbD_eq
  intro i hi
  by_cases hn : i < 32 - n
  · simp [hn]
  · simp [BitVec.getLsbD_of_ge v (n + i) (by omega)]
theorem two_pow_div_shift2 (c : W32) : 2 ^ 32 / shift2 c = Int.ofNat (2 ^ (32 - c.toNat % 32)) := by
  rw [← Nat.pow_div (by omega) (by decide)]
  rfl

section MinMax
-- The smaller and the larger of two words by a reading f that is the word modulo 2^32.
variable {f : W32 → Int} (hf : ∀ v, BitVec.ofInt 32 (f v) = v)
include hf
theorem ofInt_min (a c : W32) : BitVec.ofInt 32 (min (f a) (f c)) = if f c < f a then c else a := by
  split
  · rw [Int.min_eq_right (by omega), hf]
  · rw [Int.min_eq_left (by omega), hf]
theorem ofInt_max (a c : W32) : BitVec.ofInt 32 (max (f a) (f c)) = if f a < f c then c else a := by
  split
  · rw [Int.max_eq_right (by omega), hf]
  · rw [Int.max_eq_left (by omega), hf]
end MinMax

theorem slt_iff_sg (a c : W32) : a.slt c = true ↔ sg a < sg c := BitVec.slt_iff_toInt_lt
theorem ult_iff_un (a c : W32) : a.ult c = true ↔ un a < un c := BitVec.ult_iff_toNat_lt.trans Int.ofNat_lt.symm

/-! ## The functions of R115's table -/

theorem saAdd_eq (a b c : W32) : saAdd a b c = (BitVec.ofInt 32 (un a + un c), 0) := by simp [saAdd, BitVec.ofInt_add]
theorem saSub_eq (a b c : W32) : saSub a b c = (BitVec.ofInt 32 (un a - un c), 0) := by simp [saSub, ofInt_sub]
theorem saAddS_eq (a b c : W32) : saAddS a b c =
    (BitVec.ofInt 32 (clamp32 (sg a + sg c)), if clamp32 (sg a + sg c) != sg a + sg c then Flags.sat else 0) := satW32_eq _
theorem saSubS_eq (a b c : W32) : saSubS a b c =
    (BitVec.ofInt 32 (clamp32 (sg a - sg c)), if clamp32 (sg a - sg c) != sg a - sg c then Flags.sat else 0) := satW32_eq _
theorem saAnd_eq (a b c : W32) : saAnd a b c = (BitVec.ofInt 32 (Int.ofNat (a.toNat &&& c.toNat)), 0) := by
  simp [saAnd]
theorem saOr_eq (a b c : W32) : saOr a b c = (BitVec.ofInt 32 (Int.ofNat (a.toNat ||| c.toNat)), 0) := by
  simp [saOr]
theorem saXor_eq (a b c : W32) : saXor a b c = (BitVec.ofInt 32 (Int.ofNat (a.toNat ^^^ c.toNat)), 0) := by
  simp [saXor]
theorem saAndn_eq (a b c : W32) : saAndn a b c = (BitVec.ofInt 32 (Int.ofNat (a.toNat &&& (2 ^ 32 - 1 - c.toNat))), 0) := by
  rw [ofInt_intOfNat, BitVec.ofNat_and, ofNat_compl, BitVec.ofNat_toNat, BitVec.setWidth_eq, saAndn]
theorem saShl_eq (a b c : W32) : saShl a b c = (BitVec.ofInt 32 (un a * shift2 c), 0) := by
  rw [saShl, shamt_eq, shiftLeft_eq_mul_ofInt, BitVec.ofInt_mul, ofInt_un, shift2]
theorem saShr_eq (a b c : W32) : saShr a b c = (BitVec.ofInt 32 (un a / shift2 c), 0) := by
  rw [saShr, shamt_eq, ushiftRight_eq_ofNat, ← ofInt_intOfNat]
  rfl
theorem saSar_eq (a b c : W32) : saSar a b c = (BitVec.ofInt 32 (sg a / shift2 c), 0) := by
  rw [saSar, shamt_eq, ← BitVec.ofInt_toInt (x := a.sshiftRight _), BitVec.toInt_sshiftRight, Int.shiftRight_eq_div_pow]
  rfl
theorem saRor_eq (a b c : W32) :
    saRor a b c = (BitVec.ofInt 32 (un a / shift2 c + un a * (2 ^ 32 / shift2 c)), 0) := by
  have hr : BitVec.ofInt 32 (un a / shift2 c) = a >>> shamt c := (congrArg Prod.fst (saShr_eq a b c)).symm
  rw [BitVec.ofInt_add, hr, BitVec.ofInt_mul, ofInt_un, two_pow_div_shift2, ← shiftLeft_eq_mul_ofInt, ← shamt_eq,
    ← rotateRight_eq_add _ _ (by rw [shamt_eq]; omega), saRor]

theorem saMin_eq (a b c : W32) : saMin a b c = (BitVec.ofInt 32 (min (sg a) (sg c)), 0) := by
  simp only [saMin, ofInt_min ofInt_sg, slt_iff_sg]
theorem saMax_eq (a b c : W32) : saMax a b c = (BitVec.ofInt 32 (max (sg a) (sg c)), 0) := by
  simp only [saMax, ofInt_max ofInt_sg, slt_iff_sg]
theorem saMinu_eq (a b c : W32) : saMinu a b c = (BitVec.ofInt 32 (min (un a) (un c)), 0) := by
  simp only [saMinu, ofInt_min ofInt_un, ult_iff_un]
theorem saMaxu_eq (a b c : W32) : saMaxu a b c = (BitVec.ofInt 32 (max (un a) (un c)), 0) := by
  simp only [saMaxu, ofInt_max ofInt_un, ult_iff_un]
theorem saCmpeq_eq (a b c : W32) : saCmpeq a b c = (BitVec.ofInt 32 (oneIf (a == c)), 0) := by rw [saCmpeq, bit32_eq_ofInt]
theorem saCmpne_eq (a b c : W32) : saCmpne a b c = (BitVec.ofInt 32 (oneIf (a != c)), 0) := by rw [saCmpne, bit32_eq_ofInt]
theorem saCmplt_eq (a b c : W32) : saCmplt a b c = (BitVec.ofInt 32 (oneIf (decide (sg a < sg c))), 0) := by
  rw [saCmplt, bit32_eq_ofInt, BitVec.slt_eq_decide, sg, sg]
theorem saCmple_eq (a b c : W32) : saCmple a b c = (BitVec.ofInt 32 (oneIf (decide (sg a ≤ sg c))), 0) := by
  rw [saCmple, bit32_eq_ofInt, BitVec.sle_eq_decide, sg, sg]
theorem saCmpltu_eq (a b c : W32) : saCmpltu a b c = (BitVec.ofInt 32 (oneIf (decide (un a < un c))), 0) := by
  simp [saCmpltu, bit32_eq_ofInt, BitVec.ult_eq_decide, un]
theorem saCmpleu_eq (a b c : W32) : saCmpleu a b c = (BitVec.ofInt 32 (oneIf (decide (un a ≤ un c))), 0) := by
  simp [saCmpleu, bit32_eq_ofInt, BitVec.ule_eq_decide, un]
theorem saSel_eq (a b c : W32) : saSel a b c = (BitVec.ofInt 32 (if c.getLsbD 0 then un a else un b), 0) := by
  rw [apply_ite (BitVec.ofInt 32), ofInt_un, ofInt_un, saSel]
theorem saExt_eq (a b c : W32) : saExt a b c = (BitVec.ofInt 32 (Int.ofNat (fOf a c)), 0) := by
  rw [saExt, fieldOf_eq, ofInt_intOfNat]
theorem saExts_eq (a b c : W32) : saExts a b c = (BitVec.ofInt 32 (if (fOf a c).testBit (fLen c - 1)
    then Int.ofNat (fOf a c) - 2 ^ fLen c else Int.ofNat (fOf a c)), 0) := by
  rw [saExts, signField, fieldOf_top, fieldLen_eq, fieldOf_eq, apply_ite (BitVec.ofInt 32), ofInt_sub, ofInt_intOfNat, ← ofInt_intOfNat 32 (2 ^ fLen c)]
  rfl
theorem saIns_eq (a b c : W32) : saIns a b c = (BitVec.ofInt 32 (
    let m := (2 ^ fLen c - 1) * 2 ^ fPos c % 2 ^ 32
    Int.ofNat ((a.toNat &&& (2 ^ 32 - 1 - m)) ||| (b.toNat * 2 ^ fPos c % 2 ^ 32 &&& m))), 0) := by
  have hm : (2 ^ fLen c - 1) * 2 ^ fPos c % 2 ^ 32 = (BitVec.ofNat 32 ((2 ^ fLen c - 1) * 2 ^ fPos c)).toNat :=
    (BitVec.toNat_ofNat _ _).symm
  have hb : b.toNat * 2 ^ fPos c % 2 ^ 32 = (b <<< fPos c).toNat := by rw [BitVec.toNat_shiftLeft, Nat.shiftLeft_eq]
  simp only [saIns, insField, fieldPos_eq, fieldLen_eq, hm, hb, ofInt_intOfNat, BitVec.ofNat_or, BitVec.ofNat_and, ofNat_compl,
    BitVec.ofNat_toNat, BitVec.setWidth_eq]
theorem saClz_eq (a b c : W32) : saClz a b c =
    (BitVec.ofInt 32 (Int.ofNat (((List.range 32).takeWhile fun i => !c.getLsbD (31 - i)).length)), 0) := by
  rw [saClz, leadZeros_eq, ofInt_intOfNat]
theorem saPopc_eq (a b c : W32) : saPopc a b c = (BitVec.ofInt 32 (Int.ofNat ((List.range 32).countP fun i => c.getLsbD i)), 0) := by
  rw [saPopc, setBits_eq, ofInt_intOfNat]
theorem saAddc_eq (a b c : W32) : saAddc a b c = (BitVec.ofInt 32 (un a + un b + oneIf (c.getLsbD 0)), 0) := by
  simp [saAddc, BitVec.ofInt_add, bit32_eq_ofInt]
theorem saCarry_eq (a b c : W32) : saCarry a b c = (BitVec.ofInt 32 ((un a + un b + oneIf (c.getLsbD 0)) / 2 ^ 32), 0) := by
  rw [saCarry, oneIf_eq_toNat, ← ofInt_intOfNat]
  rfl
theorem saSubb_eq (a b c : W32) : saSubb a b c = (BitVec.ofInt 32 (un a - un b - oneIf (c.getLsbD 0)), 0) := by
  simp [saSubb, ofInt_sub, bit32_eq_ofInt]
theorem saBorrow_eq (a b c : W32) :
    saBorrow a b c = (BitVec.ofInt 32 (oneIf (decide (un a < un b + oneIf (c.getLsbD 0)))), 0) := by
  have h : a.toNat < b.toNat + (c.getLsbD 0).toNat ↔ un a < un b + oneIf (c.getLsbD 0) := by
    rw [oneIf_eq_toNat]
    exact Int.ofNat_lt.symm
  rw [saBorrow, bit32_eq_ofInt, decide_eq_decide.mpr h]
theorem saMullo_eq (a b c : W32) : saMullo a b c = (BitVec.ofInt 32 (un a * un c), 0) := by simp [saMullo, BitVec.ofInt_mul]
theorem saMulhi_eq (a b c : W32) : saMulhi a b c = (BitVec.ofInt 32 (sg a * sg c / 2 ^ 32), 0) := rfl
theorem saMulhiu_eq (a b c : W32) : saMulhiu a b c = (BitVec.ofInt 32 (un a * un c / 2 ^ 32), 0) := by
  rw [saMulhiu, ← ofInt_intOfNat]
  rfl

/-! ## The functions of R117's table -/

theorem low32_eq (c : W64) : low32 c = BitVec.ofInt 64 (sgLow c) := rfl
theorem auAadd_eq (a b c : W64) : auAadd a b c = BitVec.ofInt 64 (Int.ofNat (a.toNat + c.toNat)) := by
  rw [ofInt_intOfNat, BitVec.ofNat_add, BitVec.ofNat_toNat, BitVec.ofNat_toNat, BitVec.setWidth_eq, BitVec.setWidth_eq, auAadd]
theorem auAsub_eq (a b c : W64) : auAsub a b c = BitVec.ofInt 64 (Int.ofNat a.toNat - Int.ofNat c.toNat) := by
  rw [ofInt_sub, ofInt_intOfNat_toNat, ofInt_intOfNat_toNat, auAsub]
theorem auAidx_eq (a b c : W64) : auAidx a b c = BitVec.ofInt 64 (Int.ofNat a.toNat + sgLow c * Int.ofNat (2 ^ (b.toNat % 16))) := by
  rw [BitVec.ofInt_add, ofInt_intOfNat_toNat, BitVec.ofInt_mul, ← low32_eq, ← shiftLeft_eq_mul_ofInt, auAidx, shamt16_eq]
theorem auAcirc_eq (a b c : W64) : auAcirc a b c = BitVec.ofInt 64 (if b = 0 then Int.ofNat a.toNat + sgLow c
    else (Int.ofNat a.toNat + sgLow c) % Int.ofNat b.toNat) := by
  rw [apply_ite (BitVec.ofInt 64), BitVec.ofInt_add, ofInt_intOfNat_toNat, ← low32_eq, auAcirc, sgLow]
theorem auAand_eq (a b c : W64) : auAand a b c = BitVec.ofInt 64 (Int.ofNat (a.toNat &&& c.toNat)) := by
  simp [auAand]
theorem auAor_eq (a b c : W64) : auAor a b c = BitVec.ofInt 64 (Int.ofNat (a.toNat ||| c.toNat)) := by
  simp [auAor]
theorem auAshl_eq (a b c : W64) : auAshl a b c = BitVec.ofInt 64 (Int.ofNat (a.toNat * 2 ^ (c.toNat % 64))) := by
  rw [auAshl, shamt64_eq, shiftLeft_eq_mul_ofInt, ofInt_intOfNat, ofInt_intOfNat, BitVec.ofNat_mul, BitVec.ofNat_toNat,
    BitVec.setWidth_eq]
theorem auAshr_eq (a b c : W64) : auAshr a b c = BitVec.ofInt 64 (Int.ofNat (a.toNat / 2 ^ (c.toNat % 64))) := by
  rw [auAshr, shamt64_eq, ushiftRight_eq_ofNat, ofInt_intOfNat]
theorem auAtop_eq (a b c : W64) : auAtop a b c = BitVec.ofInt 64 (oneIf (c.getLsbD 63)) := zeroExtend_ofBool _
theorem auAcmpeq_eq (a b c : W64) : auAcmpeq a b c = BitVec.ofInt 64 (oneIf (a == c)) := zeroExtend_ofBool _
theorem auAcmpltu_eq (a b c : W64) : auAcmpltu a b c = BitVec.ofInt 64 (oneIf (decide (a.toNat < c.toNat))) := zeroExtend_ofBool _
theorem auAjoin_eq (a b c : W64) :
    auAjoin a b c = BitVec.ofInt 64 (Int.ofNat (a.toNat % 2 ^ 32 + c.toNat % 2 ^ 32 * 2 ^ 32)) := by
  apply BitVec.eq_of_toNat_eq
  rw [ofInt_intOfNat, auAjoin, BitVec.toNat_append, BitVec.toNat_setWidth, BitVec.toNat_setWidth,
    ← Nat.shiftLeft_add_eq_or_of_lt (Nat.mod_lt _ (by decide)), Nat.shiftLeft_eq, BitVec.toNat_ofNat]
  omega

/-! ## The rows -/

/-- A trigger whose two forms are the operand forms of one operation fires it in both. -/
theorem Trig.fires_of {r : Trig} {x y : Nat} (hp : ∀ w s, exec (r.port w) s = .next (s.trigger w r.eff))
    (he : ∀ w s, exec (r.ext w) s = .next (s.triggerExt w x y r.eff)) : r.fires x y fun _ _ => True := by
  constructor
  · rintro w s ⟨hg, hs⟩ -
    rw [hp, trigger_fires hg hs]
  · rintro w e rest s ⟨hg, hr, he', hs⟩ -
    rw [he, triggerExt_fires hg hr he' hs, armed]

/-- What scalarResultsHold says of one row, and addressResultsHold of one. -/
def ScalarRow.Fires (r : ScalarRow) : Prop := Trig.fires ⟨r.port, r.ext, r.eff⟩ 0x100 0x101 fun _ _ => True
def AddrRow.Fires (r : AddrRow) : Prop := Trig.fires ⟨r.port, r.ext, r.eff⟩ 0x102 0x103 fun _ _ => True

theorem saFire_eq_eff {r : ScalarRow} {g : W32 → W32 → W32 → W32 × Flags}
    (hg : ∀ a b c, g a b c = (BitVec.ofInt 32 (r.f a b c), if r.sat a c then Flags.sat else 0)) : saFire r.lat g = r.eff := by
  funext t s
  simp only [saFire, ScalarRow.eff, hg, BitVec.toNat_ofInt]
  rfl

theorem auFire_eq_eff {r : AddrRow} {g : W64 → W64 → W64 → W64} (hg : ∀ a b c, g a b c = BitVec.ofInt 64 (r.f a b c)) :
    auFire g = r.eff := by
  funext t s
  simp only [auFire, AddrRow.eff, hg, BitVec.toNat_ofInt]
  rfl

theorem ScalarRow.Fires.of_eq {r : ScalarRow} {g : W32 → W32 → W32 → W32 × Flags}
    (hg : ∀ a b c, g a b c = (BitVec.ofInt 32 (r.f a b c), if r.sat a c then Flags.sat else 0))
    (hp : ∀ w s, exec (r.port w) s = saRun r.lat g w s := by intros; rfl)
    (he : ∀ w s, exec (r.ext w) s = saRunExt r.lat g w s := by intros; rfl) : r.Fires := by
  rw [ScalarRow.Fires, ← saFire_eq_eff hg]
  exact Trig.fires_of hp he

theorem AddrRow.Fires.of_eq {r : AddrRow} {g : W64 → W64 → W64 → W64} (hg : ∀ a b c, g a b c = BitVec.ofInt 64 (r.f a b c))
    (hp : ∀ w s, exec (r.port w) s = auRun g w s := by intros; rfl)
    (he : ∀ w s, exec (r.ext w) s = auRunExt g w s := by intros; rfl) : r.Fires := by
  rw [AddrRow.Fires, ← auFire_eq_eff hg]
  exact Trig.fires_of hp he

/-- R115, R116: every row of the table. -/
theorem scalar_rows_fire : scalarResultsHold := by
  change ∀ r ∈ scalarRows, r.Fires
  simp only [scalarRows, List.forall_mem_cons]
  exact ⟨
    .of_eq saAdd_eq, .of_eq saSub_eq, .of_eq saAddS_eq, .of_eq saSubS_eq, .of_eq saAnd_eq, .of_eq saOr_eq,
    .of_eq saXor_eq, .of_eq saAndn_eq, .of_eq saShl_eq, .of_eq saShr_eq, .of_eq saSar_eq, .of_eq saRor_eq,
    .of_eq saMin_eq, .of_eq saMax_eq, .of_eq saMinu_eq, .of_eq saMaxu_eq, .of_eq saCmpeq_eq,
    .of_eq saCmpne_eq, .of_eq saCmplt_eq, .of_eq saCmple_eq, .of_eq saCmpltu_eq, .of_eq saCmpleu_eq,
    .of_eq saSel_eq, .of_eq saExt_eq, .of_eq saExts_eq, .of_eq saIns_eq, .of_eq saClz_eq, .of_eq saPopc_eq,
    .of_eq saAddc_eq, .of_eq saCarry_eq, .of_eq saSubb_eq, .of_eq saBorrow_eq, .of_eq saMullo_eq,
    .of_eq saMulhi_eq, .of_eq saMulhiu_eq, List.forall_mem_nil _⟩

theorem address_rows_fire : addressResultsHold := by
  change ∀ r ∈ addrRows, r.Fires
  simp only [addrRows, List.forall_mem_cons]
  exact ⟨
    .of_eq auAadd_eq, .of_eq auAsub_eq, .of_eq auAidx_eq, .of_eq auAcirc_eq, .of_eq auAand_eq,
    .of_eq auAor_eq, .of_eq auAshl_eq, .of_eq auAshr_eq, .of_eq auAtop_eq, .of_eq auAcmpeq_eq,
    .of_eq auAcmpltu_eq, .of_eq auAjoin_eq, List.forall_mem_nil _⟩

/-! ## PNZ (R118) -/

theorem landP_of_ne_zero (r : RegFile) {k : Nat} (h : k ≠ 0) (v : Bool) : r.landP k v =
    { r with p := r.p.put k ((r.getP k).land v)
             flg := { r.flg with acc := r.flg.acc ||| (if (r.getP k).wr then Flags.dw else 0) } } := by
  rw [RegFile.landP, if_neg h]
  rfl

theorem pnz_fires : pnzResultsHold := by
  constructor
  · rintro w k s h0 - hk ⟨hg, hs⟩
    have hl : (s.inHandler && decide (3 < k.toNat)) = false := by
      cases h : s.inHandler
      · rfl
      · rw [decide_eq_false (by have := hk h; omega), Bool.and_false]
    have hn : k.toNat ≠ 0 := fun e => h0 (BitVec.eq_of_toNat_eq e)
    have he : exec (.pnz w k) s = execPnz w k s := rfl
    rw [he, execPnz, hl, if_neg Bool.false_ne_true, trigger_fires hg hs, State.modRegs, landP_of_ne_zero _ hn]
  · intro w k s hh hk
    have he : exec (.pnz w k) s = execPnz w k s := rfl
    have hl : (s.inHandler && decide (3 < k.toNat)) = true := by
      rw [hh, decide_eq_true (by omega), Bool.and_true]
    rw [he, execPnz, hl, if_pos rfl, State.raiseSlot]

/-- Settles O47: every row of the two tables, then PNZ. -/
theorem scalarAndPredicateResults : Obligations.ScalarAndPredicateResults :=
  ⟨scalar_rows_fire, address_rows_fire, pnz_fires⟩

end Sys2Proof.Machine
end

section
/-!
PROOF. The vector bit operations and compares (R141, R142): the bits of packed lanes, the masks of compares, the order of a format's
codes as the order of their values, and what each trigger that executes delivers.
-/
namespace Sys2Proof.Machine

/-! ## The forms of a vector trigger (R136, R139) -/

/-- An operation that answers a result puts it in flight, with the energy of one vector operation. -/
theorem vaFire_some {lat : Nat} {f : VIn → VOut} {t q : TVal} {fl : Flags} {s : State} (h : f (s.vaIn t) = some (q, fl)) :
    vaFire lat f t s = vaDone s lat q fl := by
  simp only [vaFire, h] <;> rfl

/-- A trigger whose two forms run an operation that answers a result with the property, where the inputs' tags are accepted,
delivers it. -/
theorem vaDelivers_of {port ext : Slot → Instr} {lat : Nat} {ok : VIn → Prop} {p : VIn → TVal → Flags → Prop} {f : VIn → VOut}
    (hf : ∀ v, ok v → ∃ q fl, f v = some (q, fl) ∧ p v q fl)
    (hp : ∀ w s, exec (port w) s = vaRun lat f w s := by intros; rfl)
    (he : ∀ w s, exec (ext w) s = vaRunExt lat f w s := by intros; rfl) : vaDelivers port ext lat ok p := by
  constructor
  · rintro w s ⟨hg, hs⟩ hok
    obtain ⟨q, fl, hq, hpq⟩ := hf _ hok
    exact ⟨q, fl, hpq, by rw [hp, vaRun, trigger_fires hg hs, vaFire_some hq]⟩
  · rintro w e rest s ⟨hg, hr, he', hs⟩ a hok
    obtain ⟨q, fl, hq, hpq⟩ := hf _ hok
    exact ⟨q, fl, hpq, by rw [he, vaRunExt, triggerExt_fires hg hr he' hs, ← armed, vaFire_some hq]⟩

theorem isIntTag_iff (t : Tag) : isIntTag t = true ↔ isInt t := by simp [isIntTag, isInt, or_assoc]
theorem isFltTag_iff (t : Tag) : isFltTag t = true ↔ isFlt t := by simp [isFltTag, isFlt, or_assoc]

/-- An Integer element is 8, 16 or 32 bits wide (R88, R97). -/
theorem tagWidth_of_isInt {t : Tag} (h : isInt t) : tagWidth t = 8 ∨ tagWidth t = 16 ∨ tagWidth t = 32 := by
  rcases h with rfl | rfl | rfl <;> decide
/-- A Floating tag names a format of 16 or 32 bits (R89, R97). -/
theorem fmtOf_of_isFlt {t : Tag} (h : isFlt t) : ∃ f, fmtOf t = some f ∧ (f.w = 16 ∨ f.w = 32) := by
  rcases h with rfl | rfl | rfl
  · exact ⟨fp32, rfl, .inr rfl⟩
  · exact ⟨bf16, rfl, .inl rfl⟩
  · exact ⟨fp16, rfl, .inl rfl⟩

/-! ## Elements and masks (R88, R142) -/

theorem elemAt_lt (v w j : Nat) : elemAt v w j < 2 ^ w := Nat.mod_lt _ (Nat.two_pow_pos w)
theorem el_lt (v : TVal) (w j : Nat) : el v w j < 2 ^ w := elemAt_lt _ _ _

/-- An operation on the elements of two vectors, as a function of the element's index. -/
theorem zipWith_lanes {α : Type} (g : Nat → Nat → α) (x t : TVal) (w : Nat) :
    List.zipWith g (lanes x.val w) (lanes t.val w) = (List.range (2048 / w)).map fun j => g (el x w j) (el t w j) := by
  simp only [lanes, List.zipWith_map, List.zipWith_self, el]

/-- Bit i of packed elements is bit i mod w of element i / w; past the last element it is 0. -/
theorem testBit_packLanes {w : Nat} (hw : 0 < w) (l : List Nat) (i : Nat) :
    (packLanes w l).testBit i = (l[i / w]?.getD 0).testBit (i % w) := by
  induction l generalizing i with
  | nil => simp [packLanes]
  | cons e l ih =>
    have hcons : packLanes w (e :: l) = 2 ^ w * packLanes w l + e % 2 ^ w := Nat.add_comm _ _
    rw [hcons, Nat.testBit_two_pow_mul_add _ (Nat.mod_lt _ (Nat.two_pow_pos w))]
    by_cases hi : i < w
    · rw [if_pos hi, Nat.div_eq_of_lt hi, Nat.mod_eq_of_lt hi, List.getElem?_cons_zero, Option.getD_some,
        Nat.testBit_mod_two_pow, decide_eq_true hi, Bool.true_and]
    · obtain ⟨n, rfl⟩ := Nat.exists_eq_add_of_le (Nat.le_of_not_lt hi)
      rw [if_neg hi, ih, Nat.add_sub_cancel_left, Nat.add_div_left _ hw, Nat.add_mod_left, List.getElem?_cons_succ]

/-- Bit i of a mask is the truth of the element whose span holds it, 0 past the last one. -/
theorem getLsbD_maskOf {w : Nat} (hw : 0 < w / 8) (l : List Bool) {i : Nat} (hi : i < 2048) :
    (maskOf w l).val.getLsbD i = l[i / (w / 8)]?.getD false := by
  have hlt : i % (w / 8) < w / 8 := Nat.mod_lt _ hw
  have hspan : ∀ b : Bool, (if b then 2 ^ (w / 8) - 1 else 0 : Nat).testBit (i % (w / 8)) = b := by
    rintro (_ | _)
    · exact Nat.zero_testBit _
    · rw [if_pos rfl, Nat.testBit_two_pow_sub_one, decide_eq_true hlt]
  have hmap : ∀ o : Option Bool, (o.map fun b => if b then 2 ^ (w / 8) - 1 else 0).getD 0 =
      if o.getD false then 2 ^ (w / 8) - 1 else 0 := by rintro (_ | _) <;> rfl
  rw [maskOf, BitVec.getLsbD_ofNat, decide_eq_true hi, Bool.true_and, testBit_packLanes hw,
    List.getElem?_map, hmap, hspan]

/-- The mask of a vector's element truths is the mask R142 describes. -/
theorem maskOf_isMask {w : Nat} (hw : w = 8 ∨ w = 16 ∨ w = 32) (p : Nat → Bool) :
    isMask (maskOf w ((List.range (2048 / w)).map p)) w fun j => p j = true := by
  have h0 : 0 < w / 8 := by omega
  refine ⟨rfl, Nat.lt_pow_two_of_testBit _ fun i hi => ?_, fun i hi => ?_⟩
  · by_cases h : i < 2048
    · have hn : 2048 / w ≤ i / (w / 8) := by rcases hw with rfl | rfl | rfl <;> omega
      have hnone : ((List.range (2048 / w)).map p)[i / (w / 8)]? = none :=
        List.getElem?_eq_none (by rwa [List.length_map, List.length_range])
      exact (getLsbD_maskOf h0 _ h).trans (by rw [hnone, Option.getD_none])
    · exact BitVec.getLsbD_of_ge _ _ (Nat.le_of_not_lt h)
  · have hn : i * 8 / w = i / (w / 8) := by rcases hw with rfl | rfl | rfl <;> omega
    have hlt : i / (w / 8) < 2048 / w := by rcases hw with rfl | rfl | rfl <;> omega
    rw [getLsbD_maskOf h0 _ (by omega), hn, List.getElem?_map, List.getElem?_range hlt, Option.map_some, Option.getD_some]

theorem isMask_congr {q : TVal} {w : Nat} {p r : Nat → Prop} (h : ∀ j, p j ↔ r j) (hp : isMask q w p) : isMask q w r := by
  obtain ⟨htag, hlt, hbits⟩ := hp
  exact ⟨htag, hlt, fun i hi => (hbits i hi).trans (h _)⟩

/-! ## The bit operations (R141) -/

theorem getLsbD_and_not (a c : W2048) (i : Nat) (hi : i < 2048) :
    (a &&& ~~~c).getLsbD i = (a.getLsbD i && !c.getLsbD i) := by
  rw [BitVec.getLsbD_and, BitVec.getLsbD_not, decide_eq_true hi, Bool.true_and]

theorem bits2_delivers {port ext : Slot → Instr} {g : Bool → Bool → Bool} {f : W2048 → W2048 → W2048}
    (hf : ∀ a c i, i < 2048 → (f a c).getLsbD i = g (a.getLsbD i) (c.getLsbD i))
    (hp : ∀ w s, exec (port w) s = vaRun 2 (bits2 f) w s := by intros; rfl)
    (he : ∀ w s, exec (ext w) s = vaRunExt 2 (bits2 f) w s := by intros; rfl) :
    vaDelivers port ext 2 (fun _ => True) (fun v q fl =>
      q.tag = (if v.x.tag = v.t.tag then v.x.tag else 0) ∧ fl = 0 ∧
        ∀ i < 2048, q.val.getLsbD i = g (v.x.val.getLsbD i) (v.t.val.getLsbD i)) :=
  vaDelivers_of (fun v _ => ⟨_, _, rfl, by simp only [beq_iff_eq], rfl, hf v.x.val v.t.val⟩) hp he

/-! ## The integer compares (R142) -/

/-- The two signed readings of a code agree: its top bit is set where it is not below half the range. -/
theorem sgnOf_eq_sgn {w c : Nat} (hw : 0 < w) (hc : c < 2 ^ w) : sgnOf w c = sgn w c := by
  unfold sgnOf sgn
  by_cases h : c < 2 ^ (w - 1)
  · rw [Nat.testBit_lt_two_pow h, if_pos h, if_neg Bool.false_ne_true]
  · have htop : c.testBit (w - 1) = true :=
      Nat.testBit_of_two_pow_le_and_two_pow_add_one_gt (Nat.le_of_not_lt h) (by rwa [Nat.sub_add_cancel hw])
    rw [htop, if_neg h, if_pos rfl]
    rfl

theorem sgnOf_lt_eq (w a c : Nat) (hw : 0 < w) (ha : a < 2 ^ w) (hc : c < 2 ^ w) :
    decide (sgnOf w a < sgnOf w c) = decide (sgn w a < sgn w c) := by rw [sgnOf_eq_sgn hw ha, sgnOf_eq_sgn hw hc]
theorem sgnOf_le_eq (w a c : Nat) (hw : 0 < w) (ha : a < 2 ^ w) (hc : c < 2 ^ w) :
    decide (sgnOf w a ≤ sgnOf w c) = decide (sgn w a ≤ sgn w c) := by rw [sgnOf_eq_sgn hw ha, sgnOf_eq_sgn hw hc]

/-- Integer compares on the codes of one width. -/
theorem intCmp_delivers {port ext : Slot → Instr} {g : Nat → Nat → Nat → Bool} {f : Nat → Nat → Nat → Bool}
    (hf : ∀ w a c, 0 < w → a < 2 ^ w → c < 2 ^ w → f w a c = g w a c)
    (hp : ∀ w s, exec (port w) s = vaRun 2 (intCmp f) w s := by intros; rfl)
    (he : ∀ w s, exec (ext w) s = vaRunExt 2 (intCmp f) w s := by intros; rfl) :
    vaDelivers port ext 2 (fun v => isInt v.x.tag ∧ v.t.tag = v.x.tag) (fun v q fl =>
      let w := tagWidth v.x.tag
      fl = 0 ∧ isMask q w fun j => g w (el v.x w j) (el v.t w j) = true) := by
  refine vaDelivers_of (fun v hv => ?_) hp he
  obtain ⟨hx, ht⟩ := hv
  have hw := tagWidth_of_isInt hx
  refine ⟨_, _, if_pos (by rw [(isIntTag_iff _).mpr hx, ht, beq_self_eq_true, Bool.and_self]), rfl, ?_⟩
  rw [zipWith_lanes]
  refine isMask_congr (fun j => ?_) (maskOf_isMask hw _)
  rw [hf _ _ _ (by omega) (el_lt _ _ _) (el_lt _ _ _)]

/-! ## The order of a format's codes (R89, R90, R142) -/

/-- The value of a magnitude code in units of the min subnormal. -/
def Fmt.magInt (f : Fmt) (m : Nat) : Nat :=
  if m / 2 ^ f.mb = 0 then m % 2 ^ f.mb else (2 ^ f.mb + m % 2 ^ f.mb) * 2 ^ (m / 2 ^ f.mb - 1)
/-- The value of an order key: that of its magnitude, with its sign. -/
def Fmt.keyInt (f : Fmt) (z : Int) : Int := z.sign * f.magInt z.natAbs

/-- Every value of an exponent lies below those of the next one. -/
theorem magInt_lt (f : Fmt) (m : Nat) : f.magInt m < 2 ^ f.mb * 2 ^ (m / 2 ^ f.mb) := by
  have hlt : m % 2 ^ f.mb < 2 ^ f.mb := Nat.mod_lt _ (Nat.two_pow_pos _)
  unfold Fmt.magInt
  split
  · next h => rwa [h, Nat.pow_zero, Nat.mul_one]
  · next h =>
    rw [← Nat.two_pow_pred_mul_two (Nat.pos_of_ne_zero h), Nat.mul_comm (2 ^ _) 2, ← Nat.mul_assoc]
    exact Nat.mul_lt_mul_of_pos_right (by omega) (Nat.two_pow_pos _)

/-- A larger magnitude code has a larger value. -/
theorem magInt_lt_of_lt (f : Fmt) {m n : Nat} (hmn : m < n) : f.magInt m < f.magInt n := by
  rcases Nat.lt_or_eq_of_le (Nat.div_le_div_right (c := 2 ^ f.mb) (Nat.le_of_lt hmn)) with hex | hex
  · calc f.magInt m < 2 ^ f.mb * 2 ^ (m / 2 ^ f.mb) := magInt_lt f m
      _ ≤ 2 ^ f.mb * 2 ^ (n / 2 ^ f.mb - 1) := Nat.mul_le_mul_left _ (Nat.pow_le_pow_right (by decide) (by omega))
      _ ≤ (2 ^ f.mb + n % 2 ^ f.mb) * 2 ^ (n / 2 ^ f.mb - 1) := Nat.mul_le_mul_right _ (Nat.le_add_right _ _)
      _ = f.magInt n := by rw [Fmt.magInt, if_neg (Nat.ne_zero_of_lt hex)]
  · have hmant : m % 2 ^ f.mb < n % 2 ^ f.mb := by
      have hm := Nat.div_add_mod m (2 ^ f.mb)
      have hn := Nat.div_add_mod n (2 ^ f.mb)
      rw [hex] at hm
      generalize 2 ^ f.mb * (n / 2 ^ f.mb) = q at hm hn
      omega
    unfold Fmt.magInt
    rw [hex]
    split
    · exact hmant
    · exact Nat.mul_lt_mul_of_pos_right (Nat.add_lt_add_left hmant _) (Nat.two_pow_pos _)

theorem keyInt_neg (f : Fmt) (z : Int) : f.keyInt (-z) = -f.keyInt z := by
  rw [Fmt.keyInt, Int.sign_neg, Int.natAbs_neg, Int.neg_mul, ← Fmt.keyInt]
@[simp] theorem keyInt_natCast (f : Fmt) (n : Nat) : f.keyInt n = f.magInt n := by
  cases n with
  | zero => simp [Fmt.keyInt, Fmt.magInt]
  | succ n => rw [Fmt.keyInt, Int.sign_natCast_of_ne_zero (Nat.succ_ne_zero n), Int.one_mul, Int.natAbs_natCast]

/-- A larger key has a larger value: a negative one's lies below zero, where magnitudes fall as keys rise. -/
theorem keyInt_lt_of_lt (f : Fmt) {y z : Int} (hyz : y < z) : f.keyInt y < f.keyInt z := by
  have hzero : f.magInt 0 = 0 := by rw [Fmt.magInt, Nat.zero_div, Nat.zero_mod, if_pos rfl]
  obtain ⟨m, rfl | rfl⟩ := Int.eq_nat_or_neg y <;> obtain ⟨n, rfl | rfl⟩ := Int.eq_nat_or_neg z <;>
    simp only [keyInt_neg, keyInt_natCast]
  · exact Int.ofNat_lt.mpr (magInt_lt_of_lt f (Int.ofNat_lt.mp hyz))
  · omega
  · rcases Nat.eq_zero_or_pos m with rfl | hm
    · have := magInt_lt_of_lt f (m := 0) (n := n) (by omega)
      omega
    · have := magInt_lt_of_lt f hm
      omega
  · have := magInt_lt_of_lt f (m := n) (n := m) (by omega)
    omega

/-- The order of keys is the order of their values. -/
theorem keyInt_lt_iff (f : Fmt) (y z : Int) : f.keyInt y < f.keyInt z ↔ y < z := by
  refine ⟨fun h => Int.not_le.mp fun hzy => ?_, keyInt_lt_of_lt f⟩
  rcases Int.lt_or_eq_of_le hzy with hlt | rfl
  · exact Int.lt_asymm h (keyInt_lt_of_lt f hlt)
  · exact Int.lt_irrefl _ h

/-- Different keys have different values. -/
theorem keyInt_eq_iff (f : Fmt) (y z : Int) : f.keyInt y = f.keyInt z ↔ y = z := by
  have hlt := keyInt_lt_iff f y z
  have hgt := keyInt_lt_iff f z y
  omega

/-- The key's value is the magnitude's, under the code's sign. -/
theorem keyInt_numKey (f : Fmt) (c : Nat) : f.keyInt (f.numKey c) =
    if c.testBit (f.w - 1) then -(f.magInt (c % 2 ^ (f.w - 1)) : Int) else f.magInt (c % 2 ^ (f.w - 1)) := by
  rw [Fmt.numKey, apply_ite f.keyInt, keyInt_neg, Int.ofNat_eq_natCast, keyInt_natCast]

theorem natAbs_numKey (f : Fmt) (c : Nat) : (f.numKey c).natAbs = c % 2 ^ (f.w - 1) := by
  rw [Fmt.numKey, apply_ite Int.natAbs, Int.natAbs_neg, ite_self]
  rfl

/-- A magnitude up to the largest finite code's is a finite value, its key's in units of the min subnormal. -/
theorem value_of_magnitude_le {f : Fmt} {c : Nat} (h : c % 2 ^ (f.w - 1) ≤ f.maxCode) :
    ∃ d, f.value c = .fin d ∧ d.at f.unit = f.keyInt (f.numKey c) := by
  simp only [Fmt.value, if_pos h, keyInt_numKey, Fmt.magInt]
  split
  · next hex => exact ⟨_, rfl, by simp [Dy.at, Fmt.unit]⟩
  · next hex =>
    generalize c % 2 ^ (f.w - 1) / 2 ^ f.mb = ex at hex ⊢
    have he : (Int.ofNat ex - Int.ofNat f.bias - Int.ofNat f.mb - f.unit).toNat = ex - 1 := by
      rw [Fmt.unit, Int.ofNat_eq_natCast]
      omega
    exact ⟨_, rfl, by simp only [Dy.at, he] <;> rfl⟩

/-- What a code holds: a NaN; a finite value, its key's; or an infinity, whose key lies next to that of the largest finite value of
its sign. -/
theorem value_cases (f : Fmt) (c : Nat) : f.value c = .nan ∨
    (∃ d, f.value c = .fin d ∧ d.at f.unit = f.keyInt (f.numKey c) ∧ (f.numKey c).natAbs ≤ f.maxCode) ∨
    ∃ s, f.value c = .inf s ∧ f.numKey c = if s then -(Int.ofNat (f.maxCode + 1)) else Int.ofNat (f.maxCode + 1) := by
  by_cases h : c % 2 ^ (f.w - 1) ≤ f.maxCode
  · obtain ⟨d, hd, hkey⟩ := value_of_magnitude_le h
    exact .inr (.inl ⟨d, hd, hkey, by rwa [natAbs_numKey]⟩)
  · cases hinf : f.hasInf && c % 2 ^ (f.w - 1) == f.maxCode + 1
    · exact .inl (by simp only [Fmt.value, if_neg h, hinf, Bool.false_eq_true, if_false])
    · have hmag : c % 2 ^ (f.w - 1) = f.maxCode + 1 := by simpa using (Bool.and_eq_true_iff.mp hinf).2
      exact .inr (.inr ⟨c.testBit (f.w - 1), by simp only [Fmt.value, if_neg h, hinf, if_true], by rw [Fmt.numKey, hmag]⟩)

/-- A code is numerically below another where neither is a NaN and its key is below: two finite values by
keyInt_lt_iff, an infinity because its key lies past every finite one. -/
theorem numLess_iff (f : Fmt) (a b : Nat) : numLess f a b ↔ f.value a ≠ .nan ∧ f.value b ≠ .nan ∧ f.numKey a < f.numKey b := by
  rcases value_cases f a with ha | ⟨x, ha, hx, hka⟩ | ⟨s, ha, hka⟩
  · simp [numLess, Fmt.int, ha]
  · rcases value_cases f b with hb | ⟨y, hb, hy, hkb⟩ | ⟨r, hb, hkb⟩
    · simp [numLess, Fmt.int, ha, hb]
    · simp [numLess, Fmt.int, ha, hb, hx, hy, keyInt_lt_iff]
    · cases r <;> simp [numLess, Fmt.int, ha, hb, hkb] <;> omega
  · rcases value_cases f b with hb | ⟨y, hb, hy, hkb⟩ | ⟨r, hb, hkb⟩
    · simp [numLess, Fmt.int, ha, hb]
    · cases s <;> simp [numLess, Fmt.int, ha, hb, hka] <;> omega
    · cases s <;> cases r <;> simp [numLess, Fmt.int, ha, hb, hka, hkb] <;> omega

/-- A code is numerically equal to another where neither is a NaN and their keys are the same. -/
theorem numSame_iff (f : Fmt) (a b : Nat) : numSame f a b ↔ f.value a ≠ .nan ∧ f.value b ≠ .nan ∧ f.numKey a = f.numKey b := by
  rcases value_cases f a with ha | ⟨x, ha, hx, hka⟩ | ⟨s, ha, hka⟩
  · simp [numSame, Fmt.int, ha]
  · rcases value_cases f b with hb | ⟨y, hb, hy, hkb⟩ | ⟨r, hb, hkb⟩
    · simp [numSame, Fmt.int, ha, hb]
    · simpa [numSame, Fmt.int, ha, hb, hx, hy, keyInt_eq_iff] using eq_comm
    · cases r <;> simp [numSame, Fmt.int, ha, hb, hkb] <;> omega
  · rcases value_cases f b with hb | ⟨y, hb, hy, hkb⟩ | ⟨r, hb, hkb⟩
    · simp [numSame, Fmt.int, ha, hb]
    · cases s <;> simp [numSame, Fmt.int, ha, hb, hka] <;> omega
    · cases s <;> cases r <;> simp [numSame, Fmt.int, ha, hb, hka, hkb] <;> omega

/-! ## The floating compares (R142) -/

/-- Elements of which each raises a flag or none raise it where one does. -/
theorem foldl_or_ite {α : Type} (p : α → Bool) (fl a : Flags) (l : List α) :
    l.foldl (fun b j => b ||| if p j then fl else 0) a = a ||| if l.any p then fl else 0 := by
  induction l generalizing a with
  | nil => simp
  | cons j l ih =>
    rw [List.foldl_cons, ih, List.any_cons, BitVec.or_assoc]
    cases p j <;> cases l.any p <;> simp

/-- Every floating compare raises NANSEEN beside a NaN, and nothing else. -/
theorem fCmp_flags (f : Fmt) (c : FCmp) (a b : Nat) :
    (fCmp f c a b).2 = if (f.value a).isNan || (f.value b).isNan then Flags.nanSeen else 0 := by cases c <;> rfl

theorem isNan_iff (v : Fv) : v.isNan = true ↔ v = .nan := by cases v <;> simp [Fv.isNan]

/-- Floating compares on the values of two codes of a format. -/
theorem fltCmp_delivers {port ext : Slot → Instr} {c : FCmp} {r : Fmt → Nat → Nat → Prop}
    (hc : ∀ f a b, (fCmp f c a b).1 = true ↔ r f a b)
    (hp : ∀ w s, exec (port w) s = vaRun 2 (fltCmp c) w s := by intros; rfl)
    (he : ∀ w s, exec (ext w) s = vaRunExt 2 (fltCmp c) w s := by intros; rfl) :
    vaDelivers port ext 2 (fun v => isFlt v.x.tag ∧ v.t.tag = v.x.tag) (fun v q fl =>
      ∀ f, fmtOf v.x.tag = some f →
        fl = (if (List.range (2048 / f.w)).any fun j => (f.value (el v.x f.w j)).isNan || (f.value (el v.t f.w j)).isNan
          then Flags.nanSeen else 0) ∧
        isMask q f.w fun j => r f (el v.x f.w j) (el v.t f.w j)) := by
  refine vaDelivers_of (fun v hv => ?_) hp he
  obtain ⟨hx, ht⟩ := hv
  obtain ⟨f, hf, hw⟩ := fmtOf_of_isFlt hx
  have htags : (isFltTag v.x.tag && v.t.tag == v.x.tag) = true := by
    rw [(isFltTag_iff _).mpr hx, ht, beq_self_eq_true, Bool.and_self]
  refine ⟨_, _, by rw [fltCmp, if_pos htags, hf], fun g hg => ?_⟩
  obtain rfl : f = g := Option.some.inj (hf.symm.trans hg)
  rw [zipWith_lanes, List.foldl_map, List.map_map]
  refine ⟨?_, isMask_congr (fun j => hc _ _ _) (maskOf_isMask (.inr hw) _)⟩
  simp only [fCmp_flags, foldl_or_ite]
  exact BitVec.zero_or

theorem fCmp_eq_iff (f : Fmt) (a b : Nat) : (fCmp f .eq a b).1 = true ↔ numSame f a b := by
  simp [fCmp, numSame_iff, ← isNan_iff, and_assoc]
theorem fCmp_lt_iff (f : Fmt) (a b : Nat) : (fCmp f .lt a b).1 = true ↔ numLess f a b := by
  simp [fCmp, numLess_iff, ← isNan_iff, and_assoc]
theorem fCmp_le_iff (f : Fmt) (a b : Nat) : (fCmp f .le a b).1 = true ↔ numLess f a b ∨ numSame f a b := by
  simp [fCmp, numLess_iff, numSame_iff, ← isNan_iff, and_assoc, ← and_or_left, Int.le_iff_lt_or_eq]
theorem fCmp_un_iff (f : Fmt) (a b : Nat) : (fCmp f .un a b).1 = true ↔ f.value a = .nan ∨ f.value b = .nan := by
  simp [fCmp, isNan_iff]

/-- Settles O3: the rows of the bit operations, of the integer compares and of the floating compares. -/
theorem vectorLogicResults : Obligations.VectorLogicResults := by
  unfold Obligations.VectorLogicResults
  simp only [vBitRows, vCmpRows, vfCmpRows, List.forall_mem_cons]
  refine ⟨⟨?_, ?_, ?_, ?_, List.forall_mem_nil _⟩, ⟨?_, ?_, ?_, ?_, ?_, ?_, List.forall_mem_nil _⟩,
    ⟨?_, ?_, ?_, ?_, List.forall_mem_nil _⟩⟩
  · exact bits2_delivers fun _ _ _ _ => BitVec.getLsbD_and
  · exact bits2_delivers fun _ _ _ _ => BitVec.getLsbD_or
  · exact bits2_delivers fun _ _ _ _ => BitVec.getLsbD_xor
  · exact bits2_delivers (g := fun a c => a && !c) getLsbD_and_not
  · exact intCmp_delivers (f := fun _ a c => a == c) fun _ _ _ _ _ _ => rfl
  · exact intCmp_delivers (f := fun _ a c => a != c) fun _ _ _ _ _ _ => rfl
  · exact intCmp_delivers sgnOf_lt_eq
  · exact intCmp_delivers sgnOf_le_eq
  · exact intCmp_delivers (f := fun _ a c => decide (a < c)) fun _ _ _ _ _ _ => rfl
  · exact intCmp_delivers (f := fun _ a c => decide (a ≤ c)) fun _ _ _ _ _ _ => rfl
  · exact fltCmp_delivers fCmp_eq_iff
  · exact fltCmp_delivers fCmp_lt_iff
  · exact fltCmp_delivers fCmp_le_iff
  · exact fltCmp_delivers fCmp_un_iff

end Sys2Proof.Machine
end
